-- ==== Sys2Proof/Word.lean ====
section
/-! DEFINITION. The widths of the block's values (00_scope.md R7, R8, R9): every quantity is an unsigned bit vector. -/

namespace Sys2Proof

/-- One byte of the transmit buffer (10_state.md R30). -/
abbrev Byte := BitVec 8

/-- One 16-bit word of a wire frame, or one colour intensity (30_encoding.md R82). -/
abbrev Word := BitVec 16

/-- A pixel descriptor as an operand, and a wire frame as a number (30_encoding.md R80, R82). -/
abbrev Desc := BitVec 64

/-- A command word `cmd[127:0]` (30_encoding.md R108). -/
abbrev CmdWord := BitVec 128

end Sys2Proof
end

