-- ==== Sys2Proof/Config.lean ====
section
/-! DEFINITION. What is fixed for the machine: the named parameters of 00_scope.md R7 with the document's values
(92_eei_decisions.md D29, log entry 16), and the one free value, which has no body. -/

namespace Sys2Proof.Config

/-- `LEADING_ZERO_BYTES` (R7). -/
def leadingZeroBytes : Nat := 16

/-- `FRAME_BYTES` (R7). -/
def frameBytes : Nat := 8

/-- `MIN_STRIP_LENGTH` (R7). -/
def minStripLength : Nat := 1

/-- `MAX_STRIP_LENGTH` (R7). -/
def maxStripLength : Nat := 1024

/-- `CLOCK_CEILING_HZ` (R7). -/
def clockCeilingHz : Nat := 40000000

/-- `RATE_MARGIN` (R7): "a fixed design constant, not tunable". -/
def rateMargin : Nat := 2

/-- `FREQ_SET` (R7), in the order of 30_encoding.md R88: index 0 first. -/
def freqSet : List Nat := [1, 2, 5, 10, 20, 24, 25, 30, 50, 60, 100, 120]

/-- The bytes the instance holds, 8,208 (10_state.md R30, 92_eei_decisions.md D30). -/
def bufCapacity : Nat := leadingZeroBytes + maxStripLength * frameBytes

/-- FREE VALUE (70_reset_and_hazards.md R270, 93_implementation_defined.md U1; log entry 7).
`transportReadsNew n k` says of the `n`-th store that meets a transfer in flight whether the transport reads the
`k`-th of the 8 stored bytes after the store (the payload carries the new byte) or has read it before (the old one).
The spec picks neither, so there is no body. -/
opaque transportReadsNew : Nat → Nat → Bool

end Sys2Proof.Config
end

