-- ==== Sys2Proof/Syntax.lean ====
section
/-! DEFINITION. The operation set (30_encoding.md R95): two commands, three events and reset, with their operands;
and the form in which each reaches the block's input ports. -/

namespace Sys2Proof

/-- The complete operation set, one constructor per row of the operation table (30_encoding.md R95, R107). -/
inductive Instr where
  /-- The command `INIT` (40_init.md R120): the configuration list of 30_encoding.md R96. -/
  | init (busId dataPin clockPin : BitVec 8) (cbPresent : BitVec 1) (freqCode : BitVec 4)
      (stripLength : BitVec 16) (clockSpeedHz : BitVec 32)
  /-- The command `SET_PIXEL` (41_set_pixel.md R150; 30_encoding.md R100). -/
  | setPixel (index : BitVec 32) (desc : Desc)
  /-- The event `TICK` from the timer service (42_scheduler.md R170). -/
  | tick
  /-- The event `TX_DONE` from the transport with its bit `tx_err` (42_scheduler.md R176). -/
  | txDone (txErr : BitVec 1)
  /-- The event `CB_RET` from the user callback (42_scheduler.md R179). -/
  | cbRet
  /-- The reset `RST` from the platform (70_reset_and_hazards.md R260). -/
  | rst
  deriving DecidableEq, Repr

/-- Whether the operation is a command, which gets a response, or an event, which gets none (30_encoding.md R101). -/
def Instr.isCommand : Instr → Bool
  | .init .. | .setPixel .. => true
  | .tick | .txDone _ | .cbRet | .rst => false

/-- One thing on one input port (30_encoding.md R95, R104): a command word on the command port, or the strobe bits of
one event wire, of the width the operation table gives the row. -/
inductive Arrival where
  /-- The command port: `cmd_valid` with `cmd[127:0]`. -/
  | cmd (word : CmdWord)
  /-- The wire `tick`. -/
  | tick (strobe : BitVec 1)
  /-- The wires `tx_done` (bit 1) and `tx_err` (bit 0). -/
  | txDone (strobe : BitVec 2)
  /-- The wire `cb_done`. -/
  | cbDone (strobe : BitVec 1)
  /-- The wire `rst`. -/
  | rst (strobe : BitVec 1)
  deriving DecidableEq, Repr

/-- The six caller-supplied fields of a pixel descriptor (30_encoding.md R80), without the reserved bit. -/
structure Pixel where
  clRed : BitVec 5
  clGreen : BitVec 5
  clBlue : BitVec 5
  red : Word
  green : Word
  blue : Word
  deriving DecidableEq, Repr

/-- The abbreviation `FRAME` of 30_encoding.md R111: one full refresh tick with its callback, the listed operations
being issued in the callback window. -/
def frameOps (ops : List Instr) : List Instr :=
  [.tick, .txDone 0#1] ++ ops ++ [.cbRet]

end Sys2Proof
end

