-- ==== Sys2Proof/WellFormed.lean ====
section
/-! DEFINITION. Which instructions a legal command word or strobe stands for (30_encoding.md R106). Every other range is
fixed by an operand's width, so the one check is on the frequency code. -/

namespace Sys2Proof

/-- `freq_code` names a member of the frequency set (30_encoding.md R88, R96: 0 to 11). -/
def legalFreqCode (freqCode : BitVec 4) : Bool := freqCode.toNat < Config.freqSet.length

/-- The instruction is one that a legal word encodes. -/
def WellFormed : Instr → Bool
  | .init _ _ _ _ freqCode _ _ => legalFreqCode freqCode
  | .setPixel .. | .tick | .txDone _ | .cbRet | .rst => true

end Sys2Proof
end

