-- ==== Sys2Proof/Decode.lean ====
section
/-! DEFINITION. The decoder, total on any word and on any bytes, rejecting by name; after it the encoder, written from the
same field tables (30_encoding.md R96, R100, R102, R104, R106). -/

namespace Sys2Proof

/-- Why a word is no operation. The step function answers the first three with `InvalidParameter` (30_encoding.md R106). -/
inductive DecodeError where
  /-- `cmd[127:120]` is neither 0x01 nor 0x02 (R106 (a), R107). -/
  | unknownOpcode
  /-- A reserved bit of the command word is 1 (R106 (b), (c)). -/
  | reservedBits
  /-- `freq_code` is 12 to 15 (R106 (b)). -/
  | reservedFreqCode
  /-- The strobe bit is 0: no event is there (R104). -/
  | noStrobe
  /-- A serialised command word is 16 bytes (R102, R108). -/
  | wrongLength
  deriving DecidableEq, Repr

/-! ### Bytes of a word, most significant first (30_encoding.md R102, 20_memory.md R52) -/

/-- The `n` bytes of `v`, the most significant byte first: byte `k` is `v[8(n-k)-1 : 8(n-k-1)]` (00_scope.md R10). -/
def beBytes (n : Nat) {w : Nat} (v : BitVec w) : List Byte :=
  (List.range n).map fun k => v.extractLsb' (8 * (n - 1 - k)) 8

/-- The number that bytes stand for, the first the most significant (00_scope.md R10). -/
def beValue (bytes : List Byte) : Nat :=
  bytes.foldl (fun acc b => acc * 256 + b.toNat) 0

/-! ### Decoding -/

/-- The INIT format `I` (30_encoding.md R96, R106 (b)). -/
def decodeInit (w : CmdWord) : Except DecodeError Instr :=
  if w.extractLsb' 89 7 ≠ 0#7 ∨ w.extractLsb' 84 4 ≠ 0#4 ∨ w.extractLsb' 0 32 ≠ 0#32 then .error .reservedBits
  else if legalFreqCode (w.extractLsb' 80 4) then
    .ok (.init (w.extractLsb' 112 8) (w.extractLsb' 104 8) (w.extractLsb' 96 8) (w.extractLsb' 88 1)
      (w.extractLsb' 80 4) (w.extractLsb' 64 16) (w.extractLsb' 32 32))
  else .error .reservedFreqCode

/-- The SET_PIXEL format `P` (30_encoding.md R100, R106 (c)). -/
def decodeSetPixel (w : CmdWord) : Except DecodeError Instr :=
  if w.extractLsb' 96 24 ≠ 0#24 then .error .reservedBits
  else .ok (.setPixel (w.extractLsb' 64 32) (w.extractLsb' 0 64))

/-- A command word: the opcode byte alone selects the format (30_encoding.md R108). -/
def decodeCmd (w : CmdWord) : Except DecodeError Instr :=
  if w.extractLsb' 120 8 = 0x01#8 then decodeInit w
  else if w.extractLsb' 120 8 = 0x02#8 then decodeSetPixel w
  else .error .unknownOpcode

/-- What an arrival on an input port stands for (30_encoding.md R95, R104). -/
def decode : Arrival → Except DecodeError Instr
  | .cmd w => decodeCmd w
  | .tick b => if b = 1#1 then .ok .tick else .error .noStrobe
  | .txDone b => if b[1] then .ok (.txDone (b.extractLsb' 0 1)) else .error .noStrobe
  | .cbDone b => if b = 1#1 then .ok .cbRet else .error .noStrobe
  | .rst b => if b = 1#1 then .ok .rst else .error .noStrobe

/-- A command word given as bytes: 16 of them, byte 0 is `cmd[127:120]` (30_encoding.md R102). -/
def decodeBytes (bytes : List Byte) : Except DecodeError Instr :=
  if bytes.length = 16 then decodeCmd (BitVec.ofNat 128 (beValue bytes)) else .error .wrongLength

/-- Which arrival a word of the operation table stands for, its bits numbered as the table numbers them: 128 bits are a
command word; up to 8 bits are a strobe. The table gives TICK, CB_RET and RST the same one-bit word `1`, each on a wire
of its own (R104), so the word alone names none of them: the table's first row is taken (log entry 9). -/
def tableArrival (nbits w : Nat) : Option Arrival :=
  if nbits = 128 then (if w < 2 ^ 128 then some (.cmd (BitVec.ofNat 128 w)) else none)
  else if nbits ≤ 8 then
    match w with
    | 1 => some (.tick 1#1)
    | 2 => some (.txDone 2#2)
    | 3 => some (.txDone 3#2)
    | _ => none
  else none

/-- The instruction the decoder reads from a word of the operation table; a command word goes through its 16 bytes. -/
def decodeTableWord (nbits w : Nat) : Option Instr :=
  match tableArrival nbits w with
  | some (.cmd word) => (decodeBytes (beBytes 16 word)).toOption
  | some a => (decode a).toOption
  | none => none

/-! ### Encoding -/

/-- The INIT command word (30_encoding.md R96), field by field from bit 127 down. -/
def encodeInit (busId dataPin clockPin : BitVec 8) (cbPresent : BitVec 1) (freqCode : BitVec 4)
    (stripLength : BitVec 16) (clockSpeedHz : BitVec 32) : CmdWord :=
  0x01#8 ++ busId ++ dataPin ++ clockPin ++ 0#7 ++ cbPresent ++ 0#4 ++ freqCode ++ stripLength ++ clockSpeedHz ++ 0#32

/-- The SET_PIXEL command word (30_encoding.md R100), field by field from bit 127 down. -/
def encodeSetPixel (index : BitVec 32) (desc : Desc) : CmdWord :=
  0x02#8 ++ 0#24 ++ index ++ desc

/-- How each instruction reaches the input ports (30_encoding.md R95). -/
def encode : Instr → Arrival
  | .init busId dataPin clockPin cbPresent freqCode stripLength clockSpeedHz =>
    .cmd (encodeInit busId dataPin clockPin cbPresent freqCode stripLength clockSpeedHz)
  | .setPixel index desc => .cmd (encodeSetPixel index desc)
  | .tick => .tick 1#1
  | .txDone txErr => .txDone (1#1 ++ txErr)
  | .cbRet => .cbDone 1#1
  | .rst => .rst 1#1

/-- A command's word as 16 bytes (30_encoding.md R102); an event has no bytes. -/
def encodeBytes (i : Instr) : Option (List Byte) :=
  match encode i with
  | .cmd w => some (beBytes 16 w)
  | .tick _ | .txDone _ | .cbDone _ | .rst _ => none

/-! ### Textual syntax (30_encoding.md R110) -/

/-- One operation on one line, as R110 writes it, without the `-> <Status>` part; numbers decimal. -/
def Instr.text : Instr → String
  | .init busId dataPin clockPin cbPresent freqCode stripLength clockSpeedHz =>
    "INIT bus=" ++ toString busId.toNat ++ " dpin=" ++ toString dataPin.toNat ++ " cpin=" ++ toString clockPin.toNat
      ++ " cb=" ++ toString cbPresent.toNat ++ " f=" ++ toString (Config.freqSet.getD freqCode.toNat 0)
      ++ " len=" ++ toString stripLength.toNat ++ " clk=" ++ toString clockSpeedHz.toNat
  | .setPixel index desc =>
    "SET_PIXEL idx=" ++ toString index.toNat
      ++ " cl=(" ++ toString (desc.extractLsb' 58 5).toNat ++ "," ++ toString (desc.extractLsb' 53 5).toNat ++ ","
      ++ toString (desc.extractLsb' 48 5).toNat ++ ") rgb=(" ++ toString (desc.extractLsb' 32 16).toNat ++ ","
      ++ toString (desc.extractLsb' 16 16).toNat ++ "," ++ toString (desc.extractLsb' 0 16).toNat ++ ")"
      ++ (if desc.extractLsb' 63 1 = 1#1 then " rsv=1" else "")
  | .tick => "TICK"
  | .txDone txErr => if txErr = 1#1 then "TX_DONE err" else "TX_DONE"
  | .cbRet => "CB_RET"
  | .rst => "RST"

end Sys2Proof
end

