-- ==== Sys2Proof/Machine/State.lean ====
section
/-! DEFINITION. The state of one block instance (10_state.md), its statuses and outputs, and the state after reset. -/

namespace Sys2Proof.Machine

/-! ### Statuses and collaborator answers -/

/-- The status taxonomy (30_encoding.md R87), in the order of the codes. -/
inductive Status where
  | ok
  | unknownError
  | invalidParameter
  | transportInUse
  | noDmaChannel
  | outOfMemory
  | noAvailableSlot
  | lengthOutOfRange
  | indexOutOfRange
  | insufficientDataRate
  deriving DecidableEq, Repr

/-- The three error classes of 60_exceptions.md R220, and success. -/
inductive StatusClass where
  | success
  | validation
  | resource
  | usage
  deriving DecidableEq, Repr

/-- The five resource-acquisition errors (60_exceptions.md R220 (b)). -/
inductive ResourceError where
  | unknownError
  | transportInUse
  | noDmaChannel
  | outOfMemory
  | noAvailableSlot
  deriving DecidableEq, Repr

/-- `alloc_rsp`: the answers of the allocator (43_collaborators.md R208). -/
inductive AllocAnswer where
  | ok
  | outOfMemory
  deriving DecidableEq, Repr

/-- `open_rsp`: the answers of the transport's `open` (43_collaborators.md R201). -/
inductive OpenAnswer where
  | ok
  | error (reason : ResourceError)
  deriving DecidableEq, Repr

/-- `timer_rsp`: the answers of the timer service (43_collaborators.md R207). -/
inductive TimerAnswer where
  | ok
  | fail
  deriving DecidableEq, Repr

/-- The collaborator answers on the input wires; each is a free input (43_collaborators.md R211). -/
structure Answers where
  alloc : AllocAnswer
  transport : OpenAnswer
  timer : TimerAnswer
  deriving DecidableEq, Repr

/-! ### Inputs and outputs -/

/-- One moment at the input ports of 92_eei_decisions.md D1: which strobes are up, whether a command word is presented,
and what the collaborators answer should that command ask them. -/
structure Moment where
  rst : BitVec 1
  /-- `tx_done` (bit 1) with `tx_err` (bit 0). -/
  txDone : BitVec 2
  cbDone : BitVec 1
  tick : BitVec 1
  /-- `cmd_valid` with `cmd[127:0]`. -/
  cmd : Option CmdWord
  answers : Answers
  deriving DecidableEq, Repr

/-- `bus_cfg`, what `open` is asked with (30_encoding.md R105). -/
structure BusCfg where
  busId : BitVec 8
  clockSpeedHz : BitVec 32
  dataPin : BitVec 8
  clockPin : BitVec 8
  deriving DecidableEq, Repr

/-- What an output port carries (00_scope.md R12; 92_eei_decisions.md D1). -/
inductive Output where
  /-- `rsp_valid` with `rsp_status` (30_encoding.md R101). -/
  | response (status : Status)
  /-- `alloc_req` with `alloc_len` (30_encoding.md R105). -/
  | allocReq (len : BitVec 14)
  /-- `alloc_free` (43_collaborators.md R208). -/
  | allocFree
  /-- `open_req` with `bus_cfg` (30_encoding.md R105). -/
  | openReq (busCfg : BusCfg)
  /-- `close_req` (43_collaborators.md R206). -/
  | closeReq
  /-- `timer_start` with `timer_period_us` (30_encoding.md R105). -/
  | timerStart (periodUs : BitVec 20)
  /-- `timer_stop`, which no rule raises (42_scheduler.md R185). -/
  | timerStop
  /-- `tx_submit` with `tx_len` (42_scheduler.md R172). -/
  | txSubmit (len : BitVec 14)
  /-- `cb_req` (42_scheduler.md R176). -/
  | cbReq
  deriving DecidableEq, Repr

/-! ### Memory -/

/-- A byte memory by offset: the listed bytes, offsets strictly rising. -/
abbrev Memory := List Host.Cell

/-- What an unlisted offset reads as: no value. The spec leaves TXBUF unspecified wherever the block has not written it
(10_state.md R30, R37; 40_init.md R134; 93_implementation_defined.md U4; log entry 1). -/
def Memory.unlisted (_ : Nat) : Option Byte := none

/-- The canonical form: offsets strictly rising and inside the instance's 8,208 bytes (10_state.md R30), and no byte
listed that would read the same unlisted. -/
def Memory.wf (m : Memory) : Bool :=
  decide (m.Pairwise fun c d => c.1 < d.1)
    && m.all fun c => decide (c.1 < Config.bufCapacity) && decide (some c.2 ≠ Memory.unlisted c.1)

/-! ### The state -/

/-- Sequencer position (10_state.md R21; 92_eei_decisions.md D10). Value 3 never occurs, so it has no constructor. -/
inductive Sched where
  | idle
  | transmitting
  | callback
  deriving DecidableEq, Repr

/-- The configuration record `CFG` (10_state.md R23). -/
structure Cfg where
  stripLength : BitVec 11
  clockSpeedHz : BitVec 32
  freqCode : BitVec 4
  busId : BitVec 8
  dataPin : BitVec 8
  clockPin : BitVec 8
  cbPresent : BitVec 1
  deriving DecidableEq, Repr

/-- Which collaborator resources the block holds (10_state.md R32). -/
structure Held where
  buffer : Bool
  transport : Bool
  timer : Bool
  deriving DecidableEq, Repr

/-- The state of one block instance (10_state.md), and after it the model's own fields. -/
structure State where
  /-- `ctx_valid`: a Strip Context exists (R22). -/
  ctxValid : Bool
  /-- `sched` (R21). -/
  sched : Sched
  /-- `tick_pending`: a tick not yet served (R27). -/
  tickPending : Bool
  /-- `CFG` (R23). -/
  cfg : Cfg
  /-- `TXBUF` (R30). -/
  txbuf : Memory
  /-- The collaborator resources held (R32). -/
  held : Held
  /-- The model's own: the bytes of the latest transfer as the transport reads them, by offset (00_scope.md R12,
  42_scheduler.md R182). While `sched` is `transmitting` that transfer is in flight (R33). -/
  payload : Memory
  /-- The model's own: what the output ports carried during the latest step, in order (00_scope.md R12). -/
  outputs : List Output
  /-- The model's own: what the input ports will carry, earliest moment first (43_collaborators.md R211). -/
  inbox : List Moment
  /-- The model's own: the collaborator answers on the input wires now (43_collaborators.md R211). -/
  answers : Answers
  /-- The model's own: the open parameter `TIMER_FAIL_STATUS` (92_eei_decisions.md D16). Nothing writes it. -/
  timerFailStatus : ResourceError
  /-- The model's own: how many stores have met a transfer in flight, the argument of the free value
  `Config.transportReadsNew`. -/
  freeCount : Nat
  deriving DecidableEq, Repr

/-- Why the machine stops with a fault. -/
inductive Fault where
  /-- Raised by SET_PIXEL's store and by Submit when they would reach an offset at or above the 8,208 bytes that exist
  (10_state.md R30). Safe: it cannot happen while the invariant `1 ≤ strip_length ≤ 1024` of R36 holds. -/
  | outsideBuffer
  deriving DecidableEq, Repr

/-- Why an instruction has no meaning. -/
inductive Refusal where
  /-- Raised only by an arm of `exec` whose instruction has no meaning yet; no arm is such. Safe. -/
  | notModelled (mnemonic : String)
  deriving DecidableEq, Repr

/-- Every field of `CFG` 0 (10_state.md R37). -/
def Cfg.zero : Cfg :=
  { stripLength := 0#11, clockSpeedHz := 0#32, freqCode := 0#4, busId := 0#8, dataPin := 0#8, clockPin := 0#8,
    cbPresent := 0#1 }

/-- No collaborator resource held (10_state.md R37). -/
def Held.none : Held := { buffer := false, transport := false, timer := false }

/-- Buffer, transport handle and armed timer held (10_state.md R32). -/
def Held.all : Held := { buffer := true, transport := true, timer := true }

/-- Every collaborator answers Ok. -/
def Answers.allOk : Answers := { alloc := .ok, transport := .ok, timer := .ok }

/-- The state after reset (10_state.md R37). The model's own fields: no transfer made (log entry 2), no output (log
entry 3), nothing arriving (log entry 4), answers Ok on the wires (log entry 5), `TIMER_FAIL_STATUS` at its default
(00_scope.md R8, log entry 6), no free value drawn (log entry 7). -/
def State.reset : State :=
  { ctxValid := false
    sched := .idle
    tickPending := false
    cfg := Cfg.zero
    txbuf := []
    held := Held.none
    payload := []
    outputs := []
    inbox := []
    answers := Answers.allOk
    timerFailStatus := .unknownError
    freeCount := 0 }

end Sys2Proof.Machine
end

