-- ==== Sys2Proof/Machine/Operands.lean ====
section
/-! DEFINITION. The operand forms: the pixel descriptor and its wire frame (30_encoding.md R80 to R85), the frequency code
(R88), and the quantities derived from a configuration (10_state.md R29). -/

namespace Sys2Proof.Machine

/-! ### The pixel descriptor and the wire frame -/

/-- The six fields of a descriptor (30_encoding.md R80); the reserved bit is discarded (R83). -/
def pixelOf (desc : Desc) : Pixel :=
  { clRed := desc.extractLsb' 58 5
    clGreen := desc.extractLsb' 53 5
    clBlue := desc.extractLsb' 48 5
    red := desc.extractLsb' 32 16
    green := desc.extractLsb' 16 16
    blue := desc.extractLsb' 0 16 }

/-- `word0`, the current-level word with its start bit (30_encoding.md R81, R84). -/
def word0 (p : Pixel) : Word :=
  0x8000#16 ||| (p.clRed.setWidth 16 <<< 10) ||| (p.clGreen.setWidth 16 <<< 5) ||| p.clBlue.setWidth 16

/-- The wire frame as a number, assembled word by word (30_encoding.md R84). -/
def assembleFrame (p : Pixel) : Desc :=
  ((word0 p).setWidth 64 <<< 48) ||| (p.red.setWidth 64 <<< 32) ||| (p.green.setWidth 64 <<< 16) ||| p.blue.setWidth 64

/-- The stored frame: the descriptor with the start bit forced to 1 (41_set_pixel.md R150 line 3, R155). -/
def forceStart (desc : Desc) : Desc := desc ||| 0x8000000000000000#64

/-- `encode(desc)`: the 8 wire bytes, lowest offset first (41_set_pixel.md R151). -/
def encodeFrame (desc : Desc) : List Byte := beBytes Config.frameBytes (forceStart desc)

/-- The inverse: the six fields that 8 frame bytes carry (30_encoding.md R85). -/
def decodeFrame : List Byte → Option Pixel
  | [b0, b1, b2, b3, b4, b5, b6, b7] =>
    some
      { clRed := (b0 ++ b1).extractLsb' 10 5
        clGreen := (b0 ++ b1).extractLsb' 5 5
        clBlue := (b0 ++ b1).extractLsb' 0 5
        red := b2 ++ b3
        green := b4 ++ b5
        blue := b6 ++ b7 }
  | _ => none

/-- The byte offset of a pixel's frame (41_set_pixel.md R152, R160; 20_memory.md R58). -/
def pixelOffset (index : BitVec 32) : Nat := Config.leadingZeroBytes + index.toNat * Config.frameBytes

/-! ### Configuration operands -/

/-- `FREQ_HZ[freq_code]` (10_state.md R26). Codes 12 to 15 name no frequency; no rule reads them. -/
def freqHz (freqCode : BitVec 4) : Nat := Config.freqSet.getD freqCode.toNat 0

/-- `period_us`, rounded down (30_encoding.md R88; 10_state.md R29). -/
def periodUs (freqCode : BitVec 4) : BitVec 20 := BitVec.ofNat 20 (1000000 / freqHz freqCode)

/-- The length of a transmit buffer for so many pixels (10_state.md R29; 20_memory.md R50). -/
def bufLenOf (length : Nat) : Nat := Config.leadingZeroBytes + length * Config.frameBytes

/-- `buf_len` of the present configuration (10_state.md R29). -/
def bufLen (cfg : Cfg) : Nat := bufLenOf cfg.stripLength.toNat

/-- `bus_cfg` (30_encoding.md R105). -/
def busCfgOf (cfg : Cfg) : BusCfg :=
  { busId := cfg.busId, clockSpeedHz := cfg.clockSpeedHz, dataPin := cfg.dataPin, clockPin := cfg.clockPin }

/-- The configuration record that INIT's operands make (40_init.md R120 line 10: `strip_length[10:0]`). -/
def cfgOf (busId dataPin clockPin : BitVec 8) (cbPresent : BitVec 1) (freqCode : BitVec 4) (stripLength : BitVec 16)
    (clockSpeedHz : BitVec 32) : Cfg :=
  { stripLength := stripLength.setWidth 11
    clockSpeedHz := clockSpeedHz
    freqCode := freqCode
    busId := busId
    dataPin := dataPin
    clockPin := clockPin
    cbPresent := cbPresent }

end Sys2Proof.Machine
end

