-- ==== Sys2Proof/Machine/Flags.lean ====
section
/-! DEFINITION. The block has no flags (10_state.md R34); what a command computes beside its effect is its status. The
status codes (30_encoding.md R87) and the checks that decide a status (40_init.md R121 to R126, 41_set_pixel.md R153, R154). -/

namespace Sys2Proof.Machine

/-- `rsp_status` (30_encoding.md R87). Codes 10 to 15 are never produced. -/
def statusCode : Status → BitVec 4
  | .ok => 0
  | .unknownError => 1
  | .invalidParameter => 2
  | .transportInUse => 3
  | .noDmaChannel => 4
  | .outOfMemory => 5
  | .noAvailableSlot => 6
  | .lengthOutOfRange => 7
  | .indexOutOfRange => 8
  | .insufficientDataRate => 9

/-- The class of a status (60_exceptions.md R220; 30_encoding.md R87). -/
def statusClass : Status → StatusClass
  | .ok => .success
  | .unknownError | .transportInUse | .noDmaChannel | .outOfMemory | .noAvailableSlot => .resource
  | .invalidParameter | .lengthOutOfRange | .insufficientDataRate => .validation
  | .indexOutOfRange => .usage

/-- A collaborator's error is the command's status unchanged (40_init.md R132; 92_eei_decisions.md D17). -/
def resourceStatus : ResourceError → Status
  | .unknownError => .unknownError
  | .transportInUse => .transportInUse
  | .noDmaChannel => .noDmaChannel
  | .outOfMemory => .outOfMemory
  | .noAvailableSlot => .noAvailableSlot

/-- The bits per second that check 4 requires (40_init.md R126, R127). For a legal length and frequency it is below
`2 ^ 32`, so the spec's 32-bit product is this number. -/
def requiredRate (length freq : Nat) : Nat := bufLenOf length * 8 * freq * Config.rateMargin

/-- The configuration validator: checks 1 to 4 in order, the first that fails decides (40_init.md R121). -/
def validate (cbPresent : BitVec 1) (freqCode : BitVec 4) (stripLength : BitVec 16) (clockSpeedHz : BitVec 32) :
    Option Status :=
  if stripLength.toNat < Config.minStripLength ∨ Config.maxStripLength < stripLength.toNat then some .lengthOutOfRange
  else if Config.clockCeilingHz < clockSpeedHz.toNat then some .invalidParameter
  else if cbPresent = 0#1 then some .invalidParameter
  else if clockSpeedHz.toNat < requiredRate stripLength.toNat (freqHz freqCode) then some .insufficientDataRate
  else none

/-- What INIT is turned away with before it asks a collaborator: illegal operand, checks 1 to 4, live context, in the
order of 60_exceptions.md R228. -/
def initCheck (cbPresent : BitVec 1) (freqCode : BitVec 4) (stripLength : BitVec 16) (clockSpeedHz : BitVec 32)
    (s : State) : Option Status :=
  if legalFreqCode freqCode then
    match validate cbPresent freqCode stripLength clockSpeedHz with
    | some st => some st
    | none => if s.ctxValid then some .transportInUse else none
  else some .invalidParameter

/-- What SET_PIXEL is turned away with: no live context, then the index, an unsigned comparison of the full 32-bit
operand (41_set_pixel.md R150 lines 1 and 2, R153, R154). -/
def pixelCheck (index : BitVec 32) (s : State) : Option Status :=
  if s.ctxValid = false then some .invalidParameter
  else if s.cfg.stripLength.toNat ≤ index.toNat then some .indexOutOfRange
  else none

/-- The offset SET_PIXEL stores its 8 bytes at, if it stores (41_set_pixel.md R150, R152). -/
def storeOffset (index : BitVec 32) (s : State) : Option Nat :=
  match pixelCheck index s with
  | some _ => none
  | none => some (pixelOffset index)

end Sys2Proof.Machine
end

