-- ==== Sys2Proof/Machine/Ops.lean ====
section
/-! DEFINITION. The named operations over the memory and the state that the meanings share: reads and writes of TXBUF,
ending a command with a status, the collaborator requests, Submit, and SET_PIXEL's store. -/

namespace Sys2Proof.Machine

/-! ### The byte memory (00_scope.md R10) -/

/-- `TXBUF[a]`: the byte at an offset, if it has a value. -/
def Memory.read (a : Nat) : Memory → Option Byte
  | [] => Memory.unlisted a
  | c :: m => if c.1 = a then some c.2 else Memory.read a m

/-- `TXBUF[a] <- b`, keeping the offsets rising. -/
def Memory.write (a : Nat) (b : Byte) : Memory → Memory
  | [] => [(a, b)]
  | c :: m => if a < c.1 then (a, b) :: c :: m else if a = c.1 then (a, b) :: m else c :: Memory.write a b m

/-- `MemWrite`: the bytes at ascending offsets from `a`. -/
def Memory.writeBytes (a : Nat) : List Byte → Memory → Memory
  | [], m => m
  | b :: bs, m => Memory.writeBytes (a + 1) bs (m.write a b)

/-- The `n` bytes at ascending offsets from `a`, if all have a value. -/
def Memory.readBytes (a : Nat) : Nat → Memory → Option (List Byte)
  | 0, _ => some []
  | n + 1, m =>
    match m.read a, Memory.readBytes (a + 1) n m with
    | some b, some bs => some (b :: bs)
    | _, _ => none

/-- `MemRead(a, n)`: the number they stand for, lowest offset most significant. -/
def Memory.readWord (a n : Nat) (m : Memory) : Option Nat := (m.readBytes a n).map beValue

/-- Every byte below offset `n` becomes 0; the others stay (40_init.md R120 line 7). -/
def Memory.zeroFill (n : Nat) (m : Memory) : Memory :=
  (List.range n).map (fun o => ((o, 0#8) : Host.Cell)) ++ m.filter fun c => decide (n ≤ c.1)

/-- Content unspecified: no byte has a value (10_state.md R37; 40_init.md R134). -/
def Memory.unspecified : Memory := []

/-- What the transport reads of a buffer of length `len`: the bytes below `len`, ascending (42_scheduler.md R181). -/
def Memory.upTo (len : Nat) (m : Memory) : Memory := m.filter fun c => decide (c.1 < len)

/-- What a store of `bytes` at `a` does to the payload of a transfer in flight: each stored byte is new in it if the
transport reads it after the store, else old, as the free value says (70_reset_and_hazards.md R270). -/
def Memory.race (draw a : Nat) (bytes : List Byte) (payload : Memory) : Memory :=
  payload.map fun c =>
    if a ≤ c.1 ∧ c.1 < a + bytes.length ∧ Config.transportReadsNew draw (c.1 - a) then
      (c.1, bytes.getD (c.1 - a) c.2)
    else c

/-! ### Outputs and the end of an operation -/

/-- The output pulses of the step before are over. -/
def State.begin (s : State) : State := { s with outputs := [] }

/-- An output port carries something. -/
def State.emit (o : Output) (s : State) : State := { s with outputs := s.outputs ++ [o] }

/-- The operation ends here; nothing more happens. An event that has no effect is this on the state it found. -/
def finish (s : State) : Host.Outcome State Fault Refusal := .next s

/-- `raise S`: the command ends with status `S`, which goes to the issuer with the response, "and that is all"
(60_exceptions.md R232; 00_scope.md R10). The one exception entry of the block; there is no return from it (R235). -/
def raise (st : Status) (s : State) : Host.Outcome State Fault Refusal := finish (s.emit (.response st))

/-- `return Ok` (00_scope.md R10). -/
def returnOk (s : State) : Host.Outcome State Fault Refusal := finish (s.emit (.response .ok))

/-! ### Requests to the collaborators (40_init.md R130 to R133) -/

/-- TXBUF's content becomes unspecified (40_init.md R134). -/
def State.loseBuffer (s : State) : State := { s with txbuf := Memory.unspecified }

/-- `alloc_req` with the buffer length. -/
def State.askAlloc (len : Nat) (s : State) : State := s.emit (.allocReq (BitVec.ofNat 14 len))

/-- The allocator answered Ok: the buffer is held and zero-filled (40_init.md R131). -/
def State.takeBuffer (len : Nat) (s : State) : State :=
  { s with held := { s.held with buffer := true }, txbuf := s.txbuf.zeroFill len }

/-- `alloc_free`: the buffer is given back. -/
def State.freeBuffer (s : State) : State :=
  { s.loseBuffer with held := { s.held with buffer := false } }.emit .allocFree

/-- `open_req` with the bus configuration. -/
def State.askOpen (busCfg : BusCfg) (s : State) : State := s.emit (.openReq busCfg)

/-- The transport answered Ok: the handle is held (40_init.md R132). -/
def State.takeTransport (s : State) : State := { s with held := { s.held with transport := true } }

/-- `close_req`: the handle is given back (43_collaborators.md R206). -/
def State.closeTransport (s : State) : State :=
  { s with held := { s.held with transport := false } }.emit .closeReq

/-- `timer_start` with the period. -/
def State.askTimer (period : BitVec 20) (s : State) : State := s.emit (.timerStart period)

/-- The timer service answered ok: the timer is armed (40_init.md R133). -/
def State.takeTimer (s : State) : State := { s with held := { s.held with timer := true } }

/-- Line 10 of INIT: the context comes to life in one step (40_init.md R133). -/
def State.commit (cfg : Cfg) (s : State) : State :=
  { s with cfg := cfg, ctxValid := true, sched := .idle, tickPending := false }

/-- Lines 6 to 10 of INIT: acquisition in order, rollback in reverse order (40_init.md R130). -/
def acquire (cfg : Cfg) (s : State) : Host.Outcome State Fault Refusal :=
  let s := s.askAlloc (bufLen cfg)
  match s.answers.alloc with
  | .outOfMemory => raise .outOfMemory s.loseBuffer
  | .ok =>
    let s := (s.takeBuffer (bufLen cfg)).askOpen (busCfgOf cfg)
    match s.answers.transport with
    | .error reason => raise (resourceStatus reason) s.freeBuffer
    | .ok =>
      let s := s.takeTransport.askTimer (periodUs cfg.freqCode)
      match s.answers.timer with
      | .fail => raise (resourceStatus s.timerFailStatus) s.closeTransport.freeBuffer
      | .ok => returnOk (s.takeTimer.commit cfg)

/-! ### Stores and transfers -/

/-- The store of SET_PIXEL (41_set_pixel.md R152): the bytes go into TXBUF; where a transfer is in flight its payload is
raced (70_reset_and_hazards.md R270). -/
def State.store (a : Nat) (bytes : List Byte) (s : State) : State :=
  match s.sched with
  | .transmitting =>
    { s with
      txbuf := s.txbuf.writeBytes a bytes
      payload := s.payload.race s.freeCount a bytes
      freeCount := s.freeCount + 1 }
  | .idle | .callback => { s with txbuf := s.txbuf.writeBytes a bytes }

/-- The store, if the offsets exist (10_state.md R30), and the end of the command. -/
def storeFrame (a : Nat) (bytes : List Byte) (s : State) : Host.Outcome State Fault Refusal :=
  if a + bytes.length ≤ Config.bufCapacity then returnOk (s.store a bytes) else .fault .outsideBuffer

/-- `Submit(buf_len)`: the sequencer is in Transmitting and the transport is given `TXBUF[0 .. buf_len-1]`
(42_scheduler.md R171, R172). -/
def submit (s : State) : Host.Outcome State Fault Refusal :=
  if bufLen s.cfg ≤ Config.bufCapacity then
    finish
      ({ s with sched := .transmitting, payload := s.txbuf.upTo (bufLen s.cfg) }.emit
        (.txSubmit (BitVec.ofNat 14 (bufLen s.cfg))))
  else .fault .outsideBuffer

end Sys2Proof.Machine
end

