-- ==== Sys2Proof/Machine/Init.lean ====
section
/-! DEFINITION. The meaning of INIT (40_init.md R120). -/

namespace Sys2Proof.Machine

/-- `INIT`: the checks in order, then acquisition and commit. A failing check raises before anything is written or asked
(40_init.md R128, R129). -/
def execInit (busId dataPin clockPin : BitVec 8) (cbPresent : BitVec 1) (freqCode : BitVec 4) (stripLength : BitVec 16)
    (clockSpeedHz : BitVec 32) (s : State) : Host.Outcome State Fault Refusal :=
  match initCheck cbPresent freqCode stripLength clockSpeedHz s with
  | some st => raise st s.begin
  | none => acquire (cfgOf busId dataPin clockPin cbPresent freqCode stripLength clockSpeedHz) s.begin

end Sys2Proof.Machine
end

