-- ==== Sys2Proof/Machine/Reset.lean ====
section
/-! DEFINITION. The meaning of RST (70_reset_and_hazards.md R260, R263). -/

namespace Sys2Proof.Machine

/-- `RST`: the block's state takes its reset values, TXBUF is unspecified, no transfer is in flight, and no collaborator
resource is held by the block (10_state.md R37). It asks the collaborators nothing (R263); what is on the input wires, the
parameter and the count of free values are not the block's state and stay. -/
def execRst (s : State) : Host.Outcome State Fault Refusal :=
  finish
    { s.begin.loseBuffer with
      ctxValid := false
      sched := .idle
      tickPending := false
      cfg := Cfg.zero
      held := Held.none
      payload := [] }

end Sys2Proof.Machine
end

