-- ==== Sys2Proof/Machine/Scheduler.lean ====
section
/-! DEFINITION. The meanings of the three events of the LED-frame transmitter (42_scheduler.md R170, R176, R179, R180). -/

namespace Sys2Proof.Machine

/-- `TICK` (R170): Submit in Idle (R171), held back elsewhere (R173), nothing without a context (R174). -/
def execTick (s : State) : Host.Outcome State Fault Refusal :=
  if s.ctxValid then
    match s.sched with
    | .idle => submit s.begin
    | .transmitting | .callback => finish { s.begin with tickPending := true }
  else finish s.begin

/-- `TX_DONE` (R176): the callback is invoked, whatever `tx_err` says (R177). -/
def execTxDone (_txErr : BitVec 1) (s : State) : Host.Outcome State Fault Refusal :=
  if s.ctxValid then
    match s.sched with
    | .transmitting => finish ({ s.begin with sched := .callback }.emit .cbReq)
    | .idle | .callback => finish s.begin
  else finish s.begin

/-- `CB_RET` (R179): back to Idle, or a pending tick is served at once. -/
def execCbRet (s : State) : Host.Outcome State Fault Refusal :=
  if s.ctxValid then
    match s.sched with
    | .callback =>
      if s.tickPending then submit { s.begin with tickPending := false } else finish { s.begin with sched := .idle }
    | .idle | .transmitting => finish s.begin
  else finish s.begin

end Sys2Proof.Machine
end

