-- ==== Sys2Proof/Machine/SetPixel.lean ====
section
/-! DEFINITION. The meaning of SET_PIXEL (41_set_pixel.md R150). -/

namespace Sys2Proof.Machine

/-- `SET_PIXEL`: the context and index checks, then the plain overwrite of 8 bytes. It does not look at `sched` (R158). -/
def execSetPixel (index : BitVec 32) (desc : Desc) (s : State) : Host.Outcome State Fault Refusal :=
  match pixelCheck index s with
  | some st => raise st s.begin
  | none => storeFrame (pixelOffset index) (encodeFrame desc) s.begin

end Sys2Proof.Machine
end

