-- ==== Sys2Proof/Machine/Dispatch.lean ====
section
/-! DEFINITION. One arm per operation of 30_encoding.md R95. -/

namespace Sys2Proof.Machine

def exec (i : Instr) (s : State) : Host.Outcome State Fault Refusal :=
  match i with
  | .init busId dataPin clockPin cbPresent freqCode stripLength clockSpeedHz => Sys2Proof.Machine.execInit busId dataPin clockPin cbPresent freqCode stripLength clockSpeedHz s
  | .setPixel index desc => Sys2Proof.Machine.execSetPixel index desc s
  | .tick => Sys2Proof.Machine.execTick s
  | .txDone txErr => Sys2Proof.Machine.execTxDone txErr s
  | .cbRet => Sys2Proof.Machine.execCbRet s
  | .rst => Sys2Proof.Machine.execRst s

end Sys2Proof.Machine
end

