-- ==== Sys2Proof/Machine/Fetch.lean ====
section
/-! DEFINITION. How the next operation comes to the block: from the earliest moment of the inbox, in the order of
60_exceptions.md R229; and what an arrival that is no operation gets (30_encoding.md R106). -/

namespace Sys2Proof.Machine

/-- A moment at which nothing arrives. -/
def Moment.quiet (answers : Answers) : Moment :=
  { rst := 0#1, txDone := 0#2, cbDone := 0#1, tick := 0#1, cmd := none, answers := answers }

/-- A moment at which one thing arrives. -/
def Moment.only (answers : Answers) : Arrival → Moment
  | .cmd w => { Moment.quiet answers with cmd := some w }
  | .tick b => { Moment.quiet answers with tick := b }
  | .txDone b => { Moment.quiet answers with txDone := b }
  | .cbDone b => { Moment.quiet answers with cbDone := b }
  | .rst b => { Moment.quiet answers with rst := b }

/-- The arrival a moment's next step takes, and the moment without it: events before the command, events in the order
`tx_done`, `cb_done`, `tick` (60_exceptions.md R229). DESIGN CHOICE (log entry 17): that order is followed even where more
than one of the events of a moment then changes `sched`. DEDUCED (log entry 8): `rst` is taken first and abandons the rest
of its moment (70_reset_and_hazards.md R260). -/
def Moment.take (m : Moment) : Option (Arrival × Moment) :=
  if m.rst = 1#1 then some (.rst m.rst, Moment.quiet m.answers)
  else if m.txDone[1] then some (.txDone m.txDone, { m with txDone := 0#2 })
  else if m.cbDone = 1#1 then some (.cbDone m.cbDone, { m with cbDone := 0#1 })
  else if m.tick = 1#1 then some (.tick m.tick, { m with tick := 0#1 })
  else
    match m.cmd with
    | some w => some (.cmd w, { m with cmd := none })
    | none => none

/-- The rest of the inbox once an arrival is taken from its first moment: a moment with nothing left is over. -/
def inboxAfter (m : Moment) (later : List Moment) : List Moment :=
  match m.take with
  | some _ => m :: later
  | none => later

/-- The next arrival, the collaborator answers of its moment, and the inbox after it is taken; none if nothing is to
come. -/
def fetch : List Moment → Option (Arrival × Answers × List Moment)
  | [] => none
  | m :: later =>
    match m.take with
    | some (a, m') => some (a, m.answers, inboxAfter m' later)
    | none => fetch later

/-- The state in which the operation of an arrival runs: its moment's answers are on the wires, the arrival is taken. -/
def State.deliver (answers : Answers) (inbox : List Moment) (s : State) : State :=
  { s with answers := answers, inbox := inbox }

/-- Nothing arrives: the block waits (42_scheduler.md R175; 10_state.md R37). -/
def State.wait (s : State) : State := { s.begin with inbox := [] }

/-- An arrival the decoder rejects. An illegal command word gets `InvalidParameter` and changes no state (30_encoding.md
R106); a strobe that is not up is no event. -/
def rejectArrival (e : DecodeError) (s : State) : Host.Outcome State Fault Refusal :=
  match e with
  | .unknownOpcode | .reservedBits | .reservedFreqCode | .wrongLength => raise .invalidParameter s.begin
  | .noStrobe => finish s.begin

end Sys2Proof.Machine
end

