-- ==== Sys2Proof/Machine/Step.lean ====
section
/-! DEFINITION. One step: the next arrival is taken, decoded and run to completion (92_eei_decisions.md D2). -/

namespace Sys2Proof.Machine

/-- One step of the block. -/
def step (s : State) : Host.Outcome State Fault Refusal :=
  match fetch s.inbox with
  | none => .next s.wait
  | some (a, answers, inbox) =>
    match decode a with
    | .ok i => exec i (s.deliver answers inbox)
    | .error e => rejectArrival e (s.deliver answers inbox)

/-- `s` with the instruction of an operation-table word arriving at the very next moment (log entry 9). -/
def State.withFetchWord (s : State) (nbits w : Nat) : State :=
  match tableArrival nbits w with
  | some a => { s with inbox := Moment.only s.answers a :: s.inbox }
  | none => s

end Sys2Proof.Machine
end

