-- ==== Sys2Proof/Safety.lean ====
section
/-! DEFINITION. What counts as a safe state and a safe run, in the terms the statements use: the invariant of 10_state.md
R36, the shape of a buffer, the buffer image of 30_encoding.md R86, and runs over a list of operations. -/

namespace Sys2Proof.Machine

/-- The next state of an outcome, if it is one. -/
def nextOf : Host.Outcome State Fault Refusal → Option State
  | .next s => some s
  | .fault _ => none
  | .refused _ => none

/-- A run of operations one after another, each to completion (92_eei_decisions.md D2), up to the first stop. -/
def execAll : List Instr → State → Host.Outcome State Fault Refusal
  | [], s => .next s
  | i :: is, s =>
    match exec i s with
    | .next t => execAll is t
    | .fault r => .fault r
    | .refused r => .refused r

/-! ### Frames of a statement: groups of fields an operation leaves alone -/

/-- The context: validity, configuration, resources. -/
abbrev SameContext (s t : State) : Prop := t.ctxValid = s.ctxValid ∧ t.cfg = s.cfg ∧ t.held = s.held

/-- The scheduler: sequencer and pending tick. -/
abbrev SameScheduler (s t : State) : Prop := t.sched = s.sched ∧ t.tickPending = s.tickPending

/-- The input side and the parameter, which no operation writes. -/
abbrev SameInputs (s t : State) : Prop :=
  t.inbox = s.inbox ∧ t.answers = s.answers ∧ t.timerFailStatus = s.timerFailStatus

/-- The transfer side: payload and free-value count. -/
abbrev SameTransfer (s t : State) : Prop := t.payload = s.payload ∧ t.freeCount = s.freeCount

/-- Every byte of TXBUF reads as before. -/
abbrev SameBuffer (s t : State) : Prop := ∀ o, t.txbuf.read o = s.txbuf.read o

/-! ### Safe states -/

/-- The bytes listed are exactly those at offsets `0` to `len - 1`. -/
abbrev Covers (len : Nat) (m : Memory) : Prop := m.map Prod.fst = List.range len

/-- "Preamble bytes are always zero" (10_state.md R36.3). -/
abbrev PreambleZero (m : Memory) : Prop := ∀ o, o < Config.leadingZeroBytes → m.read o = some 0#8

/-- The frame at offset `a` is 8 zero bytes: never written since INIT (92_eei_decisions.md D15). -/
abbrev FrameZero (m : Memory) (a : Nat) : Prop := ∀ k, k < Config.frameBytes → m.read (a + k) = some 0#8

/-- The frame at offset `a` has its start bit set: bit 7 of its first byte (10_state.md R36.4). -/
abbrev FrameStarted (m : Memory) (a : Nat) : Prop := (m.read a).any (fun b => b.getLsbD 7) = true

/-- A correctly framed buffer for so many pixels (10_state.md R36.2 to R36.4; 42_scheduler.md R183). -/
abbrev Framed (length : Nat) (m : Memory) : Prop :=
  Covers (bufLenOf length) m ∧ PreambleZero m ∧
    ∀ i, i < length →
      FrameZero m (Config.leadingZeroBytes + i * Config.frameBytes) ∨
        FrameStarted m (Config.leadingZeroBytes + i * Config.frameBytes)

/-- A configuration that passed the validator (10_state.md R23's legal values, R36.1, R36.5). -/
abbrev ValidCfg (cfg : Cfg) : Prop :=
  1 ≤ cfg.stripLength.toNat ∧ cfg.stripLength.toNat ≤ Config.maxStripLength ∧
    cfg.clockSpeedHz.toNat ≤ Config.clockCeilingHz ∧ legalFreqCode cfg.freqCode = true ∧ cfg.cbPresent = 1#1 ∧
      requiredRate cfg.stripLength.toNat (freqHz cfg.freqCode) ≤ cfg.clockSpeedHz.toNat

/-- What holds while a context exists (10_state.md R32, R36). Outside Idle there has been a Submit, whose payload covers
the buffer and begins with the zero preamble; that holds even of a payload that a store raced. -/
abbrev Live (s : State) : Prop :=
  ValidCfg s.cfg ∧ s.held = Held.all ∧ Framed s.cfg.stripLength.toNat s.txbuf ∧
    (s.sched ≠ .idle → Covers (bufLen s.cfg) s.payload ∧ PreambleZero s.payload)

/-- What holds while no context exists (10_state.md R32, R37): nothing is held, nothing runs, TXBUF has no value. -/
abbrev Dormant (s : State) : Prop :=
  s.sched = .idle ∧ s.held = Held.none ∧ s.txbuf = Memory.unspecified

/-- The invariant (10_state.md R36), with the note after 95_test_vectors.md T15: a tick is pending only outside Idle. -/
abbrev Invariant (s : State) : Prop :=
  (s.ctxValid = true → Live s) ∧ (s.ctxValid = false → Dormant s) ∧ (s.sched = .idle → s.tickPending = false)

/-! ### The buffer image (30_encoding.md R86) -/

/-- The frame of one pixel: 8 zero bytes if it was never written, else the encoding of the last descriptor. -/
def frameImage : Option Desc → List Byte
  | none => List.replicate Config.frameBytes 0#8
  | some desc => encodeFrame desc

/-- The buffer image: the preamble, then the frames of the pixels in order. -/
def imageBytes (pixels : List (Option Desc)) : List Byte :=
  List.replicate Config.leadingZeroBytes 0#8 ++ pixels.flatMap frameImage

/-- TXBUF shows the pixels: as many as the strip has, and byte for byte their image and nothing beyond it. -/
def Shows (s : State) (pixels : List (Option Desc)) : Prop :=
  pixels.length = s.cfg.stripLength.toNat ∧ ∀ o, s.txbuf.read o = (imageBytes pixels)[o]?

/-! ### What a run does -/

/-- An output that asks a collaborator something during INIT (00_scope.md R12). -/
def Output.isRequest : Output → Bool
  | .allocReq _ | .allocFree | .openReq _ | .closeReq | .timerStart _ | .timerStop => true
  | .response _ | .txSubmit _ | .cbReq => false

/-- An output that is a response (30_encoding.md R101). -/
def Output.isResponse : Output → Bool
  | .response _ => true
  | .allocReq _ | .allocFree | .openReq _ | .closeReq | .timerStart _ | .timerStop | .txSubmit _ | .cbReq => false

/-- The two operations that may take the sequencer out of Transmitting (70_reset_and_hazards.md R273). -/
def leavesTransmitting : Instr → Bool
  | .txDone _ | .rst => true
  | .init .. | .setPixel .. | .tick | .cbRet => false

end Sys2Proof.Machine
end

