-- ==== Sys2Proof/Certificates/Slice0/Obligations.lean ====
section
/-! DEFINITION. The statements for the provers. A statement that gives the next state as `{ s with … }` thereby says that
every other field, TXBUF's bytes among them, is as before. -/

open Sys2Proof Sys2Proof.Machine

/-! ### Encodings -/

/-- Decoding what the encoder writes gives the instruction back, every operand at every value (30_encoding.md sections 1
and 3). -/
def Obligations.DecodeOfEncodeIsInstruction : Prop :=
  ∀ i : Instr, WellFormed i = true → decode (encode i) = .ok i

/-- Each arrival has at most one meaning, and it is a legal one: what decodes is the encoding of a well-formed
instruction. -/
def Obligations.EncodeOfDecodeIsArrival : Prop :=
  ∀ (a : Arrival) (i : Instr), decode a = .ok i → WellFormed i = true ∧ encode i = a

/-- A command's 16 bytes, `cmd[127:120]` first, decode to it, and no other number of bytes decodes (30_encoding.md
section 3, 92_eei_decisions.md D3). -/
def Obligations.SerialisedCommandDecodes : Prop :=
  (∀ (i : Instr) (w : CmdWord) (bytes : List Byte), WellFormed i = true → encode i = .cmd w →
    encodeBytes i = some bytes →
      bytes.length = 16 ∧ bytes[0]? = some (w.extractLsb' 120 8) ∧ bytes[15]? = some (w.extractLsb' 0 8) ∧
        decodeBytes bytes = .ok i) ∧
  ∀ bytes : List Byte, bytes.length ≠ 16 → decodeBytes bytes = .error .wrongLength

/-- The illegal command words are exactly those of 30_encoding.md section 4 (this spec's decision,
92_eei_decisions.md D9). -/
def Obligations.IllegalWordsAreExactlyRejected : Prop :=
  ∀ w : CmdWord,
    (∃ e, decodeCmd w = .error e) ↔
      (w.extractLsb' 120 8 ≠ 0x01#8 ∧ w.extractLsb' 120 8 ≠ 0x02#8) ∨
        (w.extractLsb' 120 8 = 0x01#8 ∧
          (w.extractLsb' 89 7 ≠ 0#7 ∨ w.extractLsb' 84 4 ≠ 0#4 ∨ w.extractLsb' 0 32 ≠ 0#32 ∨ 12 ≤ (w.extractLsb' 80 4).toNat)) ∨
          (w.extractLsb' 120 8 = 0x02#8 ∧ w.extractLsb' 96 24 ≠ 0#24)

/-- Words written out from the field tables decode to what they stand for (30_encoding.md section 3; 95_test_vectors.md
part 3, program P1 step 1, and part 2, vector P-2). -/
def Obligations.SampleWordsDecode : Prop :=
  decode (.cmd 0x01021712010900020098968000000000#128) = .ok (.init 2 23 18 1 9 2 10000000) ∧
    decode (.cmd 0x02000000000000010443123456789ABC#128) = .ok (.setPixel 1 0x0443123456789ABC) ∧
      decode (.tick 1#1) = .ok .tick ∧ decode (.txDone 0b10#2) = .ok (.txDone 0#1) ∧
        decode (.txDone 0b11#2) = .ok (.txDone 1#1) ∧ decode (.cbDone 1#1) = .ok .cbRet ∧ decode (.rst 1#1) = .ok .rst

/-! ### A step -/

/-- A step runs the decoded instruction, with the arrival taken from the inbox (the model's own, log entry 4) and its
moment's collaborator answers on the wires. -/
def Obligations.StepRunsDecodedInstruction : Prop :=
  ∀ (s : State) (a : Arrival) (answers : Answers) (inbox : List Moment) (i : Instr),
    fetch s.inbox = some (a, answers, inbox) → decode a = .ok i →
      step s = exec i { s with answers := answers, inbox := inbox }

/-- An illegal command word gets `InvalidParameter` and changes no state of the block (92_eei_decisions.md D9). -/
def Obligations.StepAnswersIllegalCommand : Prop :=
  ∀ (s : State) (w : CmdWord) (answers : Answers) (inbox : List Moment) (e : DecodeError),
    fetch s.inbox = some (.cmd w, answers, inbox) → decodeCmd w = .error e →
      step s = .next { s with answers := answers, inbox := inbox, outputs := [.response .invalidParameter] }

/-- When nothing arrives the block does nothing of its own: no timeout, no self-scheduled tick (42_scheduler.md sections
1 and 3; that the output pulses end and the quiet moments pass is the model's, log entries 3 and 4). -/
def Obligations.StepWaitsWhenNothingArrives : Prop :=
  ∀ s : State, (∀ m ∈ s.inbox, m.take = none) → step s = .next { s with outputs := [], inbox := [] }

/-- In one moment without reset the events come before the command (92_eei_decisions.md D2), in the order `tx_done`,
`cb_done`, `tick` (60_exceptions.md section 3). The moment and the inbox are the model's (log entry 4), and so is the first
clause where `cb_done` is up beside `tx_done`: that `cb_done` stays and is still taken is log entry 17. -/
def Obligations.EventsBeforeCommandInOrder : Prop :=
  ∀ (m : Moment) (later : List Moment), m.rst = 0#1 →
    (m.txDone[1] = true →
      fetch (m :: later) = some (.txDone m.txDone, m.answers, inboxAfter { m with txDone := 0#2 } later)) ∧
    (m.txDone[1] = false → m.cbDone = 1#1 →
      fetch (m :: later) = some (.cbDone 1#1, m.answers, inboxAfter { m with cbDone := 0#1 } later)) ∧
    (m.txDone[1] = false → m.cbDone = 0#1 → m.tick = 1#1 →
      fetch (m :: later) = some (.tick 1#1, m.answers, inboxAfter { m with tick := 0#1 } later)) ∧
    (∀ w, m.txDone[1] = false → m.cbDone = 0#1 → m.tick = 0#1 → m.cmd = some w →
      fetch (m :: later) = some (.cmd w, m.answers, later)) ∧
    (m.txDone[1] = false → m.cbDone = 0#1 → m.tick = 0#1 → m.cmd = none → fetch (m :: later) = fetch later)

/-- A tick that coincides with the callback's return finds Idle: it starts a transfer at once (60_exceptions.md
section 3). -/
def Obligations.TickWithCallbackReturnStartsTransfer : Prop :=
  ∀ (s : State) (m : Moment) (later : List Moment), s.inbox = m :: later → m.rst = 0#1 → m.txDone[1] = false →
    m.cbDone = 1#1 → m.tick = 1#1 → s.ctxValid = true → s.sched = .callback → s.tickPending = false →
    s.cfg.stripLength.toNat ≤ 1024 →
      ∃ t u, step s = .next t ∧ t.sched = .idle ∧ step t = .next u ∧ u.sched = .transmitting ∧
        u.tickPending = false ∧ u.outputs = [.txSubmit (BitVec.ofNat 14 (16 + s.cfg.stripLength.toNat * 8))]

/-! ### INIT -/

/-- Check 1 (40_init.md section 2; the 16-bit operand is 92_eei_decisions.md D4): a length outside 1 to 1024 is answered
`LengthOutOfRange` whatever the other operands, with no other effect; 1 to 1024 pass. -/
def Obligations.InitRejectsBadLength : Prop :=
  ∀ (busId dataPin clockPin : BitVec 8) (cb : BitVec 1) (fc : BitVec 4) (len : BitVec 16) (clk : BitVec 32) (s : State),
    legalFreqCode fc = true →
      ((len.toNat < 1 ∨ 1024 < len.toNat) →
        exec (.init busId dataPin clockPin cb fc len clk) s =
          .next { s with outputs := [.response .lengthOutOfRange] }) ∧
      (1 ≤ len.toNat → len.toNat ≤ 1024 →
        ∃ t, exec (.init busId dataPin clockPin cb fc len clk) s = .next t ∧
          .response .lengthOutOfRange ∉ t.outputs)

/-- Check 2 (40_init.md section 2): with the length in range, a clock above 40 MHz is answered `InvalidParameter` with no
other effect; 40 MHz passes; a clock of 0 passes and then fails check 4, which the spec marks as derived. -/
def Obligations.InitRejectsClockAboveCeiling : Prop :=
  ∀ (busId dataPin clockPin : BitVec 8) (cb : BitVec 1) (fc : BitVec 4) (len : BitVec 16) (clk : BitVec 32) (s : State),
    legalFreqCode fc = true → 1 ≤ len.toNat → len.toNat ≤ 1024 →
      (40000000 < clk.toNat →
        exec (.init busId dataPin clockPin cb fc len clk) s =
          .next { s with outputs := [.response .invalidParameter] }) ∧
      (clk.toNat ≤ 40000000 → cb = 1#1 →
        ∃ t, exec (.init busId dataPin clockPin cb fc len clk) s = .next t ∧
          .response .invalidParameter ∉ t.outputs) ∧
      (clk = 0#32 → cb = 1#1 →
        exec (.init busId dataPin clockPin cb fc len clk) s =
          .next { s with outputs := [.response .insufficientDataRate] })

/-- Check 3 (40_init.md section 2; absent means `cb_present = 0`, 92_eei_decisions.md D4): with length and clock in range, a
missing callback is answered `InvalidParameter` with no other effect. -/
def Obligations.InitRejectsMissingCallback : Prop :=
  ∀ (busId dataPin clockPin : BitVec 8) (cb : BitVec 1) (fc : BitVec 4) (len : BitVec 16) (clk : BitVec 32) (s : State),
    legalFreqCode fc = true → 1 ≤ len.toNat → len.toNat ≤ 1024 → clk.toNat ≤ 40000000 → cb = 0#1 →
      exec (.init busId dataPin clockPin cb fc len clk) s = .next { s with outputs := [.response .invalidParameter] }

/-- Check 4 (40_init.md R126): the clock must be at least `(16 + 8*length) * 8 * f * 2`; equality passes. -/
def Obligations.InitRejectsInsufficientRate : Prop :=
  ∀ (busId dataPin clockPin : BitVec 8) (fc : BitVec 4) (len : BitVec 16) (clk : BitVec 32) (s : State) (f : Nat),
    Config.freqSet[fc.toNat]? = some f → 1 ≤ len.toNat → len.toNat ≤ 1024 → clk.toNat ≤ 40000000 →
      (clk.toNat < (16 + len.toNat * 8) * 8 * f * 2 →
        exec (.init busId dataPin clockPin 1#1 fc len clk) s =
          .next { s with outputs := [.response .insufficientDataRate] }) ∧
      ((16 + len.toNat * 8) * 8 * f * 2 ≤ clk.toNat →
        ∃ t, exec (.init busId dataPin clockPin 1#1 fc len clk) s = .next t ∧
          .response .insufficientDataRate ∉ t.outputs)

/-- The product of check 4 is least 384 and greatest 15,759,360, so 32 bits never wrap and some legal clock always passes
(40_init.md section 2, 92_eei_decisions.md D24). -/
def Obligations.RequiredRateBounds : Prop :=
  (∀ (fc : BitVec 4) (len : BitVec 16), legalFreqCode fc = true → 1 ≤ len.toNat → len.toNat ≤ 1024 →
    384 ≤ requiredRate len.toNat (freqHz fc) ∧ requiredRate len.toNat (freqHz fc) ≤ 15759360) ∧
  requiredRate 1 (freqHz 0) = 384 ∧ requiredRate 1024 (freqHz 11) = 15759360 ∧ 15759360 < 2 ^ 32 ∧
    15759360 ≤ Config.clockCeilingHz

/-- The validator is pure (40_init.md R128): a validation failure changes nothing and asks nobody; and a collaborator is
asked only when every check has passed. -/
def Obligations.InitValidatorIsPure : Prop :=
  ∀ (busId dataPin clockPin : BitVec 8) (cb : BitVec 1) (fc : BitVec 4) (len : BitVec 16) (clk : BitVec 32) (s : State),
    legalFreqCode fc = true →
      (∀ st, validate cb fc len clk = some st →
        exec (.init busId dataPin clockPin cb fc len clk) s = .next { s with outputs := [.response st] }) ∧
      (∀ t, exec (.init busId dataPin clockPin cb fc len clk) s = .next t →
        (∃ o ∈ t.outputs, o.isRequest = true) → validate cb fc len clk = none)

/-- With a live context a valid INIT is answered `TransportInUse` and changes nothing (92_eei_decisions.md D14). -/
def Obligations.InitOnLiveContextIsTurnedAway : Prop :=
  ∀ (busId dataPin clockPin : BitVec 8) (cb : BitVec 1) (fc : BitVec 4) (len : BitVec 16) (clk : BitVec 32) (s : State),
    legalFreqCode fc = true → validate cb fc len clk = none → s.ctxValid = true →
      exec (.init busId dataPin clockPin cb fc len clk) s = .next { s with outputs := [.response .transportInUse] }

/-- INIT completes: the configuration is stored, the buffer zero-filled, the scheduler ready, the collaborators asked in
order, and all else as before (40_init.md sections 1 and 3; 92_eei_decisions.md D1, D15, D22). -/
def Obligations.InitBringsContextToLife : Prop :=
  ∀ (busId dataPin clockPin : BitVec 8) (fc : BitVec 4) (len : BitVec 16) (clk : BitVec 32) (s : State) (f : Nat),
    Config.freqSet[fc.toNat]? = some f → 1 ≤ len.toNat → len.toNat ≤ 1024 → clk.toNat ≤ 40000000 →
    (16 + len.toNat * 8) * 8 * f * 2 ≤ clk.toNat → s.ctxValid = false → s.answers.alloc = .ok →
    s.answers.transport = .ok → s.answers.timer = .ok →
      ∃ t, exec (.init busId dataPin clockPin 1#1 fc len clk) s = .next t ∧ t.ctxValid = true ∧ t.sched = .idle ∧
        t.tickPending = false ∧ t.cfg.stripLength.toNat = len.toNat ∧ t.cfg.clockSpeedHz = clk ∧ t.cfg.freqCode = fc ∧
        t.cfg.busId = busId ∧ t.cfg.dataPin = dataPin ∧ t.cfg.clockPin = clockPin ∧ t.cfg.cbPresent = 1#1 ∧
        t.held = Held.all ∧ (∀ o, o < 16 + len.toNat * 8 → t.txbuf.read o = some 0#8) ∧
        (∀ o, 16 + len.toNat * 8 ≤ o → t.txbuf.read o = s.txbuf.read o) ∧
        t.outputs =
          [.allocReq (BitVec.ofNat 14 (16 + len.toNat * 8)),
            .openReq { busId := busId, clockSpeedHz := clk, dataPin := dataPin, clockPin := clockPin },
            .timerStart (BitVec.ofNat 20 (1000000 / f)), .response .ok] ∧
        SameInputs s t ∧ SameTransfer s t

/-- INIT answers `Ok` exactly when the frequency code is legal, the four checks pass, no context lives and the three
collaborators answer Ok (40_init.md R135). -/
def Obligations.InitAnswersOkExactlyWhen : Prop :=
  ∀ (busId dataPin clockPin : BitVec 8) (cb : BitVec 1) (fc : BitVec 4) (len : BitVec 16) (clk : BitVec 32) (s : State),
    (∃ t, exec (.init busId dataPin clockPin cb fc len clk) s = .next t ∧ .response .ok ∈ t.outputs) ↔
      fc.toNat < 12 ∧ (1 ≤ len.toNat ∧ len.toNat ≤ 1024) ∧ clk.toNat ≤ 40000000 ∧ cb = 1#1 ∧
        (16 + len.toNat * 8) * 8 * freqHz fc * 2 ≤ clk.toNat ∧ s.ctxValid = false ∧ s.answers.alloc = .ok ∧
        s.answers.transport = .ok ∧ s.answers.timer = .ok

/-- A resource failure of INIT rolls back in reverse order and leaves nothing held; the status is the collaborator's
answer, or the parameter `TIMER_FAIL_STATUS` (40_init.md section 3; 92_eei_decisions.md D16, D17, D18). TXBUF is
unspecified, so nothing is said of it. -/
def Obligations.InitRollsBackInReverseOrder : Prop :=
  ∀ (busId dataPin clockPin : BitVec 8) (cb : BitVec 1) (fc : BitVec 4) (len : BitVec 16) (clk : BitVec 32) (s : State),
    legalFreqCode fc = true → validate cb fc len clk = none → s.ctxValid = false → s.held = Held.none →
      ∀ requests : List Output,
        requests =
          [.allocReq (BitVec.ofNat 14 (16 + len.toNat * 8)),
            .openReq { busId := busId, clockSpeedHz := clk, dataPin := dataPin, clockPin := clockPin },
            .timerStart (periodUs fc)] →
        (s.answers.alloc = .outOfMemory →
          ∃ t, exec (.init busId dataPin clockPin cb fc len clk) s = .next t ∧
            t.outputs = requests.take 1 ++ [.response .outOfMemory] ∧
            SameContext s t ∧ SameScheduler s t ∧ SameInputs s t ∧ SameTransfer s t) ∧
        (∀ e, s.answers.alloc = .ok → s.answers.transport = .error e →
          ∃ t, exec (.init busId dataPin clockPin cb fc len clk) s = .next t ∧
            t.outputs = requests.take 2 ++ [.allocFree, .response (resourceStatus e)] ∧
            SameContext s t ∧ SameScheduler s t ∧ SameInputs s t ∧ SameTransfer s t) ∧
        (s.answers.alloc = .ok → s.answers.transport = .ok → s.answers.timer = .fail →
          ∃ t, exec (.init busId dataPin clockPin cb fc len clk) s = .next t ∧
            t.outputs = requests ++ [.closeReq, .allocFree, .response (resourceStatus s.timerFailStatus)] ∧
            SameContext s t ∧ SameScheduler s t ∧ SameInputs s t ∧ SameTransfer s t)

/-- The frame of INIT: it never touches inputs or transfer; with a live context nothing but the response; without `Ok` no
control field and no configuration; with `Ok` no byte at or above the buffer's end. -/
def Obligations.InitFrame : Prop :=
  ∀ (busId dataPin clockPin : BitVec 8) (cb : BitVec 1) (fc : BitVec 4) (len : BitVec 16) (clk : BitVec 32) (s t : State),
    exec (.init busId dataPin clockPin cb fc len clk) s = .next t →
      SameInputs s t ∧ SameTransfer s t ∧
      (s.ctxValid = true → SameContext s t ∧ SameScheduler s t ∧ SameBuffer s t) ∧
      (.response .ok ∉ t.outputs → t.ctxValid = s.ctxValid ∧ t.cfg = s.cfg ∧ SameScheduler s t) ∧
      (.response .ok ∈ t.outputs → ∀ o, 16 + len.toNat * 8 ≤ o → t.txbuf.read o = s.txbuf.read o)

/-! ### SET_PIXEL -/

/-- SET_PIXEL completes (41_set_pixel.md R152): the 8 bytes of `encode(desc)` at `16 + 8*index`, no other byte of TXBUF,
and no other state. -/
def Obligations.SetPixelStoresFrame : Prop :=
  ∀ (index : BitVec 32) (desc : Desc) (s : State), s.ctxValid = true → index.toNat < s.cfg.stripLength.toNat →
    s.cfg.stripLength.toNat ≤ 1024 →
      ∃ t, exec (.setPixel index desc) s = .next t ∧ t.outputs = [.response .ok] ∧
        (∀ k, k < 8 → t.txbuf.read (16 + 8 * index.toNat + k) = (encodeFrame desc)[k]?) ∧
        (∀ o, o < 16 + 8 * index.toNat ∨ 24 + 8 * index.toNat ≤ o → t.txbuf.read o = s.txbuf.read o) ∧
        SameContext s t ∧ SameScheduler s t ∧ SameInputs s t ∧ (s.sched ≠ .transmitting → SameTransfer s t)

/-- The index check (41_set_pixel.md R153): unsigned on the full operand; at or above the strip length
`IndexOutOfRange` and the buffer unchanged, below it never. -/
def Obligations.SetPixelRejectsBadIndex : Prop :=
  ∀ (index : BitVec 32) (desc : Desc) (s : State), s.ctxValid = true → s.cfg.stripLength.toNat ≤ 1024 →
    (s.cfg.stripLength.toNat ≤ index.toNat →
      exec (.setPixel index desc) s = .next { s with outputs := [.response .indexOutOfRange] }) ∧
    (index.toNat < s.cfg.stripLength.toNat →
      ∃ t, exec (.setPixel index desc) s = .next t ∧ .response .indexOutOfRange ∉ t.outputs)

/-- With no live context SET_PIXEL is answered `InvalidParameter`, whatever the index, and changes nothing
(92_eei_decisions.md D13). -/
def Obligations.SetPixelNeedsContext : Prop :=
  ∀ (index : BitVec 32) (desc : Desc) (s : State), s.ctxValid = false →
    exec (.setPixel index desc) s = .next { s with outputs := [.response .invalidParameter] }

/-- The frame of SET_PIXEL in every form: the 8 bytes at the computed offset, and nothing of TXBUF where it stores
nothing; no control field, configuration, resource or input ever. -/
def Obligations.SetPixelFrame : Prop :=
  ∀ (index : BitVec 32) (desc : Desc) (s t : State), exec (.setPixel index desc) s = .next t →
    SameContext s t ∧ SameScheduler s t ∧ SameInputs s t ∧
    (∀ a, storeOffset index s = some a → ∀ o, o < a ∨ a + 8 ≤ o → t.txbuf.read o = s.txbuf.read o) ∧
    (∀ a, storeOffset index s = some a → ∀ o, o < a ∨ a + 8 ≤ o → t.payload.read o = s.payload.read o) ∧
    (storeOffset index s = none → SameBuffer s t ∧ SameTransfer s t)

/-- The frame assembled from the six fields by shifts and masks is the descriptor with bit 63 set (30_encoding.md R84). -/
def Obligations.FrameIsAssembledFromFields : Prop :=
  ∀ desc : Desc,
    ((0x8000#16 ||| ((desc.extractLsb' 58 5).setWidth 16 <<< 10) ||| ((desc.extractLsb' 53 5).setWidth 16 <<< 5) |||
          (desc.extractLsb' 48 5).setWidth 16).setWidth 64 <<< 48) |||
        ((desc.extractLsb' 32 16).setWidth 64 <<< 32) ||| ((desc.extractLsb' 16 16).setWidth 64 <<< 16) |||
        (desc.extractLsb' 0 16).setWidth 64 = desc ||| 0x8000000000000000#64 ∧
      assembleFrame (pixelOf desc) = desc ||| 0x8000000000000000#64 ∧
      encodeFrame desc = beBytes 8 (assembleFrame (pixelOf desc))

/-- The 8 wire bytes field by field (41_set_pixel.md section 1, which marks the formula as derived from 30_encoding.md
section 1). -/
def Obligations.FrameBytesByField : Prop :=
  ∀ desc : Desc,
    encodeFrame desc =
      [0x80#8 ||| ((pixelOf desc).clRed.setWidth 8 <<< 2) ||| ((pixelOf desc).clGreen.setWidth 8 >>> 3),
        (((pixelOf desc).clGreen.setWidth 8 &&& 7#8) <<< 5) ||| (pixelOf desc).clBlue.setWidth 8,
        ((pixelOf desc).red >>> 8).setWidth 8, (pixelOf desc).red.setWidth 8,
        ((pixelOf desc).green >>> 8).setWidth 8, (pixelOf desc).green.setWidth 8,
        ((pixelOf desc).blue >>> 8).setWidth 8, (pixelOf desc).blue.setWidth 8]

/-- Round trip (41_set_pixel.md R161): decoding the stored bytes returns the six fields, the start bit is always 1, and the
reserved bit is the only information lost. -/
def Obligations.FrameRoundTrip : Prop :=
  (∀ desc : Desc, decodeFrame (encodeFrame desc) = some (pixelOf desc)) ∧
  (∀ desc : Desc, ∃ b0 rest, encodeFrame desc = b0 :: rest ∧ b0.getLsbD 7 = true) ∧
  ∀ desc desc' : Desc, encodeFrame desc = encodeFrame desc' ↔ ∀ i, i < 63 → desc.getLsbD i = desc'.getLsbD i

/-- The start bit is forced (41_set_pixel.md R155): bit 63 of the frame is 1 whatever bit 63 of the descriptor, descriptors
that differ only there store the same bytes, and the other 63 bits are stored unchanged. -/
def Obligations.StartBitIsForced : Prop :=
  (∀ desc : Desc, ((encodeFrame desc)[0]?).map (fun b => b.getLsbD 7) = some true) ∧
  (∀ desc desc' : Desc, (∀ i, i < 63 → desc.getLsbD i = desc'.getLsbD i) → encodeFrame desc = encodeFrame desc') ∧
  ∀ (desc : Desc) (i : Nat), i < 63 →
    ((encodeFrame desc)[7 - i / 8]?).map (fun b => b.getLsbD (i % 8)) = some (desc.getLsbD i)

/-- Overwrite semantics (41_set_pixel.md section 3): twice is as once; the later of two wins; different indices commute. -/
def Obligations.SetPixelOverwrites : Prop :=
  ∀ (i j : BitVec 32) (d e : Desc) (s : State),
    (∀ t u, exec (.setPixel i d) s = .next t → exec (.setPixel i d) t = .next u → SameBuffer t u) ∧
    (∀ t u v, exec (.setPixel i d) s = .next t → exec (.setPixel i e) t = .next u → exec (.setPixel i e) s = .next v →
      SameBuffer v u) ∧
    (∀ t u v w, i ≠ j → exec (.setPixel i d) s = .next t → exec (.setPixel j e) t = .next u →
      exec (.setPixel j e) s = .next v → exec (.setPixel i d) v = .next w → SameBuffer w u)

/-- A store while a transfer is in flight (92_eei_decisions.md D20): the command and TXBUF as always; each of the 8 payload
bytes stays old or is the new one (which, is the free value of log entry 7); no other payload byte changes. -/
def Obligations.SetPixelRacesTransferInFlight : Prop :=
  ∀ (index : BitVec 32) (desc : Desc) (s : State), s.ctxValid = true → s.sched = .transmitting →
    index.toNat < s.cfg.stripLength.toNat → s.cfg.stripLength.toNat ≤ 1024 →
      ∃ t, exec (.setPixel index desc) s = .next t ∧ t.outputs = [.response .ok] ∧ t.sched = .transmitting ∧
        (∀ k, k < 8 → t.txbuf.read (16 + 8 * index.toNat + k) = (encodeFrame desc)[k]?) ∧
        (∀ k old, k < 8 → s.payload.read (16 + 8 * index.toNat + k) = some old →
          t.payload.read (16 + 8 * index.toNat + k) = some old ∨
            t.payload.read (16 + 8 * index.toNat + k) = (encodeFrame desc)[k]?) ∧
        ∀ o, o < 16 + 8 * index.toNat ∨ 24 + 8 * index.toNat ≤ o → t.payload.read o = s.payload.read o

/-- The encoder does not look at the scheduler (41_set_pixel.md section 3): two states that agree on context and buffer give the
same response and the same buffer, whatever the sequencer does. -/
def Obligations.SetPixelIsBlindToScheduler : Prop :=
  ∀ (index : BitVec 32) (desc : Desc) (s s' t : State), s'.ctxValid = s.ctxValid → s'.cfg = s.cfg →
    s'.txbuf = s.txbuf → exec (.setPixel index desc) s = .next t →
      ∃ t', exec (.setPixel index desc) s' = .next t' ∧ t'.outputs = t.outputs ∧ t'.txbuf = t.txbuf ∧
        t'.sched = s'.sched

/-! ### The scheduler -/

/-- TICK in Idle completes (42_scheduler.md R171): Transmitting, one transfer of the whole buffer submitted, nothing else
changed, TXBUF not written. -/
def Obligations.TickInIdleSubmitsWholeBuffer : Prop :=
  ∀ s : State, s.ctxValid = true → s.sched = .idle → s.cfg.stripLength.toNat ≤ 1024 →
    ∃ t, exec .tick s = .next t ∧ t.sched = .transmitting ∧
      t.outputs = [.txSubmit (BitVec.ofNat 14 (16 + s.cfg.stripLength.toNat * 8))] ∧
      (∀ o, o < 16 + s.cfg.stripLength.toNat * 8 → t.payload.read o = s.txbuf.read o) ∧
      (∀ o, 16 + s.cfg.stripLength.toNat * 8 ≤ o → t.payload.read o = none) ∧
      t.tickPending = s.tickPending ∧ t.txbuf = s.txbuf ∧ t.freeCount = s.freeCount ∧ SameContext s t ∧ SameInputs s t

/-- A tick outside Idle is held in one pending bit and nothing else happens (92_eei_decisions.md D11). -/
def Obligations.TickOutsideIdleIsHeld : Prop :=
  ∀ s : State, s.ctxValid = true → s.sched ≠ .idle → exec .tick s = .next { s with tickPending := true, outputs := [] }

/-- TX_DONE in Transmitting completes: the callback is requested, whatever `tx_err` says, and nothing else changes
(42_scheduler.md section 1; 92_eei_decisions.md D21 for the ignored bit). -/
def Obligations.TxDoneInvokesCallback : Prop :=
  (∀ (e : BitVec 1) (s : State), s.ctxValid = true → s.sched = .transmitting →
    exec (.txDone e) s = .next { s with sched := .callback, outputs := [.cbReq] }) ∧
  ∀ (e e' : BitVec 1) (s : State), exec (.txDone e) s = exec (.txDone e') s

/-- CB_RET with no tick pending completes: back to Idle, nothing else (42_scheduler.md section 1). -/
def Obligations.CallbackReturnGoesToIdle : Prop :=
  ∀ s : State, s.ctxValid = true → s.sched = .callback → s.tickPending = false →
    exec .cbRet s = .next { s with sched := .idle, outputs := [] }

/-- CB_RET with a tick pending serves it at once (92_eei_decisions.md D11). -/
def Obligations.CallbackReturnServesPendingTick : Prop :=
  ∀ s : State, s.ctxValid = true → s.sched = .callback → s.tickPending = true → s.cfg.stripLength.toNat ≤ 1024 →
    ∃ t, exec .cbRet s = .next t ∧ t.sched = .transmitting ∧ t.tickPending = false ∧
      t.outputs = [.txSubmit (BitVec.ofNat 14 (16 + s.cfg.stripLength.toNat * 8))] ∧
      (∀ o, o < 16 + s.cfg.stripLength.toNat * 8 → t.payload.read o = s.txbuf.read o) ∧
      t.txbuf = s.txbuf ∧ t.freeCount = s.freeCount ∧ SameContext s t ∧ SameInputs s t

/-- An event in a state that does not expect it has no effect (92_eei_decisions.md D12). -/
def Obligations.UnexpectedEventsAreIgnored : Prop :=
  ∀ (e : BitVec 1) (s : State),
    (s.ctxValid = false → exec .tick s = .next { s with outputs := [] }) ∧
    (s.ctxValid = false ∨ s.sched ≠ .transmitting → exec (.txDone e) s = .next { s with outputs := [] }) ∧
    (s.ctxValid = false ∨ s.sched ≠ .callback → exec .cbRet s = .next { s with outputs := [] })

/-- The frame of the three events: no context, configuration, resource, buffer byte, input or free value; a payload (the
model's own, log entry 2) only by a Submit. -/
def Obligations.EventFrame : Prop :=
  ∀ (e : BitVec 1) (i : Instr) (s t : State), i = .tick ∨ i = .txDone e ∨ i = .cbRet → exec i s = .next t →
    SameContext s t ∧ SameInputs s t ∧ t.txbuf = s.txbuf ∧ t.freeCount = s.freeCount ∧
      (t.payload = s.payload ∨ .txSubmit (BitVec.ofNat 14 (bufLen s.cfg)) ∈ t.outputs)

/-- No way out of Transmitting but TX_DONE and RST, however many other operations come (42_scheduler.md section 1,
70_reset_and_hazards.md section 3): the sequencer stays, no second transfer is submitted. -/
def Obligations.TransmittingWaitsForTxDone : Prop :=
  ∀ (ops : List Instr) (s t : State), (∀ i ∈ ops, leavesTransmitting i = false) → s.ctxValid = true →
    s.sched = .transmitting → execAll ops s = .next t →
      t.ctxValid = true ∧ t.sched = .transmitting ∧ t.cfg = s.cfg ∧
        (ops ≠ [] → ∀ len, .txSubmit len ∉ t.outputs)

/-- Content of a transfer that TICK submits (42_scheduler.md R182): with no store between the TICK that submits it and its
TX_DONE, the payload is the buffer as it stood at that TICK and nothing more: 16 zero bytes, then the frames. -/
def Obligations.PayloadIsBufferAtTick : Prop :=
  ∀ (ops : List Instr) (e : BitVec 1) (s t u v : State), Invariant s → s.ctxValid = true → s.sched = .idle →
    exec .tick s = .next t →
    (∀ i ∈ ops, leavesTransmitting i = false ∧
      ∀ index desc, i = .setPixel index desc → s.cfg.stripLength.toNat ≤ index.toNat) →
    execAll ops t = .next u → exec (.txDone e) u = .next v →
      (∀ o, o < 16 + s.cfg.stripLength.toNat * 8 → v.payload.read o = s.txbuf.read o) ∧
        (∀ o, 16 + s.cfg.stripLength.toNat * 8 ≤ o → v.payload.read o = none) ∧
          ∀ o, o < 16 → v.payload.read o = some 0#8

/-- What keeps a payload (42_scheduler.md section 2; that the payload is a field is log entry 2): in Transmitting no
operation but TX_DONE, RST and a SET_PIXEL in range changes it, or TXBUF, or leaves Transmitting. -/
def Obligations.PayloadStaysUntilStored : Prop :=
  ∀ (i : Instr) (s t : State), leavesTransmitting i = false →
    (∀ index desc, i = .setPixel index desc → s.cfg.stripLength.toNat ≤ index.toNat) → s.ctxValid = true →
    s.sched = .transmitting → exec i s = .next t →
      t.payload = s.payload ∧ t.txbuf = s.txbuf ∧ t.sched = .transmitting ∧ t.ctxValid = true ∧ t.cfg = s.cfg

/-- The same content for a transfer that CB_RET submits to serve a pending tick (92_eei_decisions.md D11): with no store
between that CB_RET and its TX_DONE, the payload is the buffer as it stood at the CB_RET and nothing more. -/
def Obligations.PayloadIsBufferAtPendingTick : Prop :=
  ∀ (ops : List Instr) (e : BitVec 1) (s t u v : State), Invariant s → s.ctxValid = true → s.sched = .callback →
    s.tickPending = true → exec .cbRet s = .next t →
    (∀ i ∈ ops, leavesTransmitting i = false ∧
      ∀ index desc, i = .setPixel index desc → s.cfg.stripLength.toNat ≤ index.toNat) →
    execAll ops t = .next u → exec (.txDone e) u = .next v →
      (∀ o, o < 16 + s.cfg.stripLength.toNat * 8 → v.payload.read o = s.txbuf.read o) ∧
        (∀ o, 16 + s.cfg.stripLength.toNat * 8 ≤ o → v.payload.read o = none) ∧
          ∀ o, o < 16 → v.payload.read o = some 0#8

/-- Every submitted payload is correctly framed (42_scheduler.md section 2; the spec marks it as derived). -/
def Obligations.SubmittedPayloadIsFramed : Prop :=
  ∀ (i : Instr) (s t : State) (len : BitVec 14), Invariant s → exec i s = .next t → .txSubmit len ∈ t.outputs →
    len.toNat = 16 + s.cfg.stripLength.toNat * 8 ∧ Framed s.cfg.stripLength.toNat t.payload

/-- The ordering guarantee (20_memory.md section 6): a SET_PIXEL that completes in the callback window, with any SET_PIXELs to
other pixels after it, is whole in the next transfer, whether that is submitted by CB_RET or by the next TICK. -/
def Obligations.CallbackPixelsReachNextTransfer : Prop :=
  ∀ (index : BitVec 32) (desc : Desc) (ops : List Instr) (s t : State), s.ctxValid = true → s.sched = .callback →
    index.toNat < s.cfg.stripLength.toNat → s.cfg.stripLength.toNat ≤ 1024 →
    (∀ i ∈ ops, ∃ j d, i = .setPixel j d ∧ j ≠ index) →
    execAll ([.setPixel index desc] ++ ops ++ [.cbRet]) s = .next t →
      (s.tickPending = true → t.sched = .transmitting ∧
        ∀ k, k < 8 → t.payload.read (16 + 8 * index.toNat + k) = (encodeFrame desc)[k]?) ∧
      (s.tickPending = false → t.sched = .idle ∧ ∃ u, exec .tick t = .next u ∧ u.sched = .transmitting ∧
        ∀ k, k < 8 → u.payload.read (16 + 8 * index.toNat + k) = (encodeFrame desc)[k]?)

/-- However many ticks come in the callback window, one transfer follows CB_RET (92_eei_decisions.md D11). -/
def Obligations.OverrunTicksCoalesce : Prop :=
  ∀ (n : Nat) (s : State), s.ctxValid = true → s.sched = .callback → s.cfg.stripLength.toNat ≤ 1024 →
    ∃ t, execAll (List.replicate (n + 1) .tick ++ [.cbRet]) s = .next t ∧ t.sched = .transmitting ∧
      t.tickPending = false ∧ t.outputs = [.txSubmit (BitVec.ofNat 14 (16 + s.cfg.stripLength.toNat * 8))]

/-! ### Reset -/

/-- RST completes in every state (92_eei_decisions.md D19): context gone, sequencer Idle, nothing pending, configuration
zero, nothing held, no output, inputs untouched (the model's own, log entries 3 to 5). TXBUF is unspecified, so nothing
is said of it. -/
def Obligations.RstEndsTheContext : Prop :=
  ∀ s : State, ∃ t, exec .rst s = .next t ∧ t.ctxValid = false ∧ t.sched = .idle ∧ t.tickPending = false ∧
    t.cfg.stripLength = 0#11 ∧ t.cfg.clockSpeedHz = 0#32 ∧ t.cfg.freqCode = 0#4 ∧ t.cfg.busId = 0#8 ∧ t.cfg.dataPin = 0#8 ∧
    t.cfg.clockPin = 0#8 ∧ t.cfg.cbPresent = 0#1 ∧ t.held = Held.none ∧ t.outputs = [] ∧ t.freeCount = s.freeCount ∧
    SameInputs s t

/-- The reset values of 10_state.md section 6 (92_eei_decisions.md D19). -/
def Obligations.ResetStateValues : Prop :=
  State.reset.ctxValid = false ∧ State.reset.sched = .idle ∧ State.reset.tickPending = false ∧
    State.reset.cfg.stripLength = 0#11 ∧ State.reset.cfg.clockSpeedHz = 0#32 ∧ State.reset.cfg.freqCode = 0#4 ∧
    State.reset.cfg.busId = 0#8 ∧ State.reset.cfg.dataPin = 0#8 ∧ State.reset.cfg.clockPin = 0#8 ∧
    State.reset.cfg.cbPresent = 0#1 ∧ State.reset.held = Held.none

/-! ### The whole machine -/

/-- Reset is the only end of a context (70_reset_and_hazards.md R261): while one lives, no operation but RST ends it or
changes its configuration or gives a resource back. -/
def Obligations.ContextEndsOnlyByReset : Prop :=
  ∀ (i : Instr) (s t : State), s.ctxValid = true → i ≠ .rst → exec i s = .next t → SameContext s t

/-- The preamble is never written after initialization (20_memory.md section 1). -/
def Obligations.PreambleIsNeverWritten : Prop :=
  ∀ (i : Instr) (s t : State), s.ctxValid = true → i ≠ .rst → exec i s = .next t →
    ∀ o, o < 16 → t.txbuf.read o = s.txbuf.read o

/-- Each command produces exactly one response, an event none (30_encoding.md section 3). -/
def Obligations.CommandsRespondOnceEventsNever : Prop :=
  ∀ (i : Instr) (s t : State), exec i s = .next t →
    (t.outputs.filter Output.isResponse).length = if i.isCommand then 1 else 0

/-- The block never stops the timer and starts it only in INIT (42_scheduler.md section 3). -/
def Obligations.TimerIsStartedByInitAndNeverStopped : Prop :=
  ∀ (i : Instr) (s t : State), exec i s = .next t →
    .timerStop ∉ t.outputs ∧
      ∀ p, .timerStart p ∈ t.outputs → ∃ b d c cb fc len clk, i = .init b d c cb fc len clk ∧ s.ctxValid = false

/-- Every operation keeps the canonical form of TXBUF and payload (the model's own form of memory, log entry 1). -/
def Obligations.MemoriesStayCanonical : Prop :=
  ∀ (i : Instr) (s t : State), s.txbuf.wf = true → s.payload.wf = true → exec i s = .next t →
    t.txbuf.wf = true ∧ t.payload.wf = true

/-- The invariant of 10_state.md section 5 is kept by every step, from every state that meets it; that TXBUF has no value
without a context is the model's (log entry 1). -/
def Obligations.StepKeepsInvariant : Prop :=
  ∀ s t : State, Invariant s → step s = .next t → Invariant t

/-- The state after reset meets the invariant. -/
def Obligations.ResetMeetsInvariant : Prop := Invariant State.reset

/-- No terminal state (00_scope.md section 8): from a state that meets the invariant every finite run goes on, without
fault or refusal, whatever arrives, and the invariant holds at its end. -/
def Obligations.RunsNeverStop : Prop :=
  ∀ (k : Nat) (s : Sys2Proof.Machine.State), Invariant s →
    ∃ t : Sys2Proof.Machine.State, Host.Core.run Sys2Proof.core k s = .next t ∧ Invariant t

/-- The buffer image (30_encoding.md section 1; zero for a pixel never set is 92_eei_decisions.md D15): after INIT no pixel
is set, and any run of operations without reset leaves TXBUF showing the last descriptor set for each pixel. -/
def Obligations.BufferShowsLastDescriptors : Prop :=
  (∀ (b d c : BitVec 8) (cb : BitVec 1) (fc : BitVec 4) (len : BitVec 16) (clk : BitVec 32) (s t : State), Invariant s →
    exec (.init b d c cb fc len clk) s = .next t → .response .ok ∈ t.outputs →
      Shows t (List.replicate len.toNat none)) ∧
  ∀ (ops : List Instr) (s t : State) (pixels : List (Option Desc)), s.ctxValid = true → Shows s pixels →
    (∀ i ∈ ops, i ≠ .rst) → execAll ops s = .next t →
      Shows t (ops.foldl
        (fun shown i =>
          match i with
          | .setPixel index desc => shown.set index.toNat (some desc)
          | _ => shown)
        pixels)

/-- The status codes and the periods of the twelve frequencies (30_encoding.md section 2; 92_eei_decisions.md D5, D8,
D22). -/
def Obligations.StatusCodesAndPeriods : Prop :=
  [Status.ok, .unknownError, .invalidParameter, .transportInUse, .noDmaChannel, .outOfMemory, .noAvailableSlot,
      .lengthOutOfRange, .indexOutOfRange, .insufficientDataRate].map statusCode = [0, 1, 2, 3, 4, 5, 6, 7, 8, 9] ∧
    ([0, 1, 2, 3, 4, 5, 6, 7, 8, 9, 10, 11] : List (BitVec 4)).map freqHz = [1, 2, 5, 10, 20, 24, 25, 30, 50, 60, 100, 120] ∧
    ([0, 1, 2, 3, 4, 5, 6, 7, 8, 9, 10, 11] : List (BitVec 4)).map periodUs =
      [1000000, 500000, 200000, 100000, 50000, 41666, 40000, 33333, 20000, 16666, 10000, 8333]
end

