-- ==== Sys2Proof/Laws/Encoding.lean ====
section
/-! SUPPORT. The fields of the words the encoder writes (30_encoding.md R96, R100), one lemma per field; and a word as the
row of its fields. -/

namespace Sys2Proof

/-! ### The INIT word -/

section
variable (b d c : BitVec 8) (cb : BitVec 1) (fc : BitVec 4) (len : BitVec 16) (clk : BitVec 32)

/-- The same word with the width that the row of its fields adds up to; the lemmas below are read off it. -/
abbrev initRow :=
  0x01#8 ++ b ++ d ++ c ++ 0#7 ++ cb ++ 0#4 ++ fc ++ len ++ clk ++ 0#32

theorem encodeInit_opcode : (encodeInit b d c cb fc len clk).extractLsb' 120 8 = 0x01#8 := by
  have h : (initRow b d c cb fc len clk).extractLsb' 120 8 = 0x01#8 := by
    simp (disch := omega) only [BitVec.extractLsb'_append_eq_of_le]
    simp
  exact h

theorem encodeInit_busId : (encodeInit b d c cb fc len clk).extractLsb' 112 8 = b := by
  have h : (initRow b d c cb fc len clk).extractLsb' 112 8 = b := by
    simp (disch := omega) only [BitVec.extractLsb'_append_eq_of_le, BitVec.extractLsb'_append_eq_of_add_le]
    simp
  exact h

theorem encodeInit_dataPin : (encodeInit b d c cb fc len clk).extractLsb' 104 8 = d := by
  have h : (initRow b d c cb fc len clk).extractLsb' 104 8 = d := by
    simp (disch := omega) only [BitVec.extractLsb'_append_eq_of_le, BitVec.extractLsb'_append_eq_of_add_le]
    simp
  exact h

theorem encodeInit_clockPin : (encodeInit b d c cb fc len clk).extractLsb' 96 8 = c := by
  have h : (initRow b d c cb fc len clk).extractLsb' 96 8 = c := by
    simp (disch := omega) only [BitVec.extractLsb'_append_eq_of_le, BitVec.extractLsb'_append_eq_of_add_le]
    simp
  exact h

theorem encodeInit_reservedA : (encodeInit b d c cb fc len clk).extractLsb' 89 7 = 0#7 := by
  have h : (initRow b d c cb fc len clk).extractLsb' 89 7 = 0#7 := by
    simp (disch := omega) only [BitVec.extractLsb'_append_eq_of_le, BitVec.extractLsb'_append_eq_of_add_le]
    simp
  exact h

theorem encodeInit_cbPresent : (encodeInit b d c cb fc len clk).extractLsb' 88 1 = cb := by
  have h : (initRow b d c cb fc len clk).extractLsb' 88 1 = cb := by
    simp (disch := omega) only [BitVec.extractLsb'_append_eq_of_le, BitVec.extractLsb'_append_eq_of_add_le]
    simp
  exact h

theorem encodeInit_reservedB : (encodeInit b d c cb fc len clk).extractLsb' 84 4 = 0#4 := by
  have h : (initRow b d c cb fc len clk).extractLsb' 84 4 = 0#4 := by
    simp (disch := omega) only [BitVec.extractLsb'_append_eq_of_le, BitVec.extractLsb'_append_eq_of_add_le]
    simp
  exact h

theorem encodeInit_freqCode : (encodeInit b d c cb fc len clk).extractLsb' 80 4 = fc := by
  have h : (initRow b d c cb fc len clk).extractLsb' 80 4 = fc := by
    simp (disch := omega) only [BitVec.extractLsb'_append_eq_of_le, BitVec.extractLsb'_append_eq_of_add_le]
    simp
  exact h

theorem encodeInit_stripLength : (encodeInit b d c cb fc len clk).extractLsb' 64 16 = len := by
  have h : (initRow b d c cb fc len clk).extractLsb' 64 16 = len := by
    simp (disch := omega) only [BitVec.extractLsb'_append_eq_of_le, BitVec.extractLsb'_append_eq_of_add_le]
    simp
  exact h

theorem encodeInit_clockSpeedHz : (encodeInit b d c cb fc len clk).extractLsb' 32 32 = clk := by
  have h : (initRow b d c cb fc len clk).extractLsb' 32 32 = clk := by
    simp (disch := omega) only [BitVec.extractLsb'_append_eq_of_le, BitVec.extractLsb'_append_eq_of_add_le]
    simp
  exact h

theorem encodeInit_reservedC : (encodeInit b d c cb fc len clk).extractLsb' 0 32 = 0#32 := by
  have h : (initRow b d c cb fc len clk).extractLsb' 0 32 = 0#32 := by
    simp (disch := omega) only [BitVec.extractLsb'_append_eq_of_add_le]
    simp
  exact h

end

/-! ### The SET_PIXEL word -/

section
variable (index : BitVec 32) (desc : Desc)

/-- The same word with the width that the row of its fields adds up to. -/
abbrev setPixelRow := 0x02#8 ++ 0#24 ++ index ++ desc

theorem encodeSetPixel_opcode : (encodeSetPixel index desc).extractLsb' 120 8 = 0x02#8 := by
  have h : (setPixelRow index desc).extractLsb' 120 8 = 0x02#8 := by
    simp (disch := omega) only [BitVec.extractLsb'_append_eq_of_le]
    simp
  exact h

theorem encodeSetPixel_reserved : (encodeSetPixel index desc).extractLsb' 96 24 = 0#24 := by
  have h : (setPixelRow index desc).extractLsb' 96 24 = 0#24 := by
    simp (disch := omega) only [BitVec.extractLsb'_append_eq_of_le, BitVec.extractLsb'_append_eq_of_add_le]
    simp
  exact h

theorem encodeSetPixel_index : (encodeSetPixel index desc).extractLsb' 64 32 = index := by
  have h : (setPixelRow index desc).extractLsb' 64 32 = index := by
    simp (disch := omega) only [BitVec.extractLsb'_append_eq_of_le, BitVec.extractLsb'_append_eq_of_add_le]
    simp
  exact h

theorem encodeSetPixel_desc : (encodeSetPixel index desc).extractLsb' 0 64 = desc := by
  have h : (setPixelRow index desc).extractLsb' 0 64 = desc := by
    simp (disch := omega) only [BitVec.extractLsb'_append_eq_of_add_le]
    simp
  exact h

end

/-! ### A word as the row of its fields -/

theorem encodeInit_of_fields (w : CmdWord) (ho : w.extractLsb' 120 8 = 0x01#8) (ha : w.extractLsb' 89 7 = 0#7)
    (hb : w.extractLsb' 84 4 = 0#4) (hc : w.extractLsb' 0 32 = 0#32) :
    encodeInit (w.extractLsb' 112 8) (w.extractLsb' 104 8) (w.extractLsb' 96 8) (w.extractLsb' 88 1)
      (w.extractLsb' 80 4) (w.extractLsb' 64 16) (w.extractLsb' 32 32) = w := by
  have h : initRow (w.extractLsb' 112 8) (w.extractLsb' 104 8) (w.extractLsb' 96 8) (w.extractLsb' 88 1)
      (w.extractLsb' 80 4) (w.extractLsb' 64 16) (w.extractLsb' 32 32) = w.extractLsb' 0 128 := by
    unfold initRow
    rw [← ho, ← ha, ← hb, ← hc]
    simp (disch := omega) only [BitVec.extractLsb'_append_extractLsb'_eq_extractLsb']
  exact (show encodeInit _ _ _ _ _ _ _ = _ from h).trans (by simp)

theorem encodeSetPixel_of_fields (w : CmdWord) (ho : w.extractLsb' 120 8 = 0x02#8)
    (hr : w.extractLsb' 96 24 = 0#24) : encodeSetPixel (w.extractLsb' 64 32) (w.extractLsb' 0 64) = w := by
  have h : setPixelRow (w.extractLsb' 64 32) (w.extractLsb' 0 64) = w.extractLsb' 0 128 := by
    unfold setPixelRow
    rw [← ho, ← hr]
    simp (disch := omega) only [BitVec.extractLsb'_append_extractLsb'_eq_extractLsb']
  exact (show encodeSetPixel _ _ = _ from h).trans (by simp)

theorem cmdWord_eq_of_fields {w w' : CmdWord}
    (h : ∀ k, k < 16 → w.extractLsb' (8 * k) 8 = w'.extractLsb' (8 * k) 8) : w = w' := by
  apply BitVec.eq_of_getLsbD_eq
  intro i hi
  have hk := congrArg (fun v => v.getLsbD (i % 8)) (h (i / 8) (by omega))
  simp only [BitVec.getLsbD_extractLsb'] at hk
  have h8 : i % 8 < 8 := by omega
  have he : 8 * (i / 8) + i % 8 = i := by omega
  simpa [h8, he] using hk

/-! ### The bytes of a word -/

theorem beValue_foldl (bytes : List Byte) : ∀ acc,
    bytes.foldl (fun acc b => acc * 256 + b.toNat) acc = acc * 256 ^ bytes.length + beValue bytes := by
  unfold beValue
  induction bytes with
  | nil => intro acc; simp
  | cons b bs ih =>
    intro acc
    simp only [List.foldl_cons, List.length_cons]
    rw [ih, ih (0 * 256 + b.toNat)]; ring

theorem beValue_cons (b : Byte) (bytes : List Byte) :
    beValue (b :: bytes) = b.toNat * 256 ^ bytes.length + beValue bytes := by
  have h := beValue_foldl bytes (0 * 256 + b.toNat)
  rw [Nat.zero_mul, Nat.zero_add] at h
  exact (congrArg (fun a => bytes.foldl _ a) (by simp)).trans h

theorem beBytes_succ {w : Nat} (v : BitVec w) (n : Nat) :
    beBytes (n + 1) v = v.extractLsb' (8 * n) 8 :: beBytes n v := by
  unfold beBytes
  rw [List.range_succ_eq_map]
  simp only [List.map_cons, List.map_map]
  congr 1
  apply List.map_congr_left
  intro k hk
  rw [List.mem_range] at hk
  show v.extractLsb' (8 * (n + 1 - 1 - (k + 1))) 8 = _
  congr 2; omega

/-- The bytes of a word stand for the word's low bits. -/
theorem beValue_beBytes {w : Nat} (v : BitVec w) (n : Nat) : beValue (beBytes n v) = v.toNat % 256 ^ n := by
  induction n with
  | zero => simp [beBytes, beValue, Nat.mod_one]
  | succ n ih =>
    have hl : (beBytes n v).length = n := by simp [beBytes]
    rw [beBytes_succ, beValue_cons, ih, hl, BitVec.extractLsb'_toNat, show (2 : Nat) ^ 8 = 256 by rfl,
      Nat.shiftRight_eq_div_pow, show (2 : Nat) ^ (8 * n) = 256 ^ n by rw [pow_mul]; norm_num, pow_succ, Nat.mod_mul]
    ring

end Sys2Proof
end

