-- ==== Sys2Proof/Laws/State.lean ====
section
/-! SUPPORT. The fields of the state after each named update (Machine/Ops.lean, Machine/Fetch.lean), by rfl. -/

namespace Sys2Proof.Machine

variable (s : State)

@[simp] theorem State.begin_ctxValid : s.begin.ctxValid = s.ctxValid := rfl
@[simp] theorem State.begin_sched : s.begin.sched = s.sched := rfl
@[simp] theorem State.begin_tickPending : s.begin.tickPending = s.tickPending := rfl
@[simp] theorem State.begin_cfg : s.begin.cfg = s.cfg := rfl
@[simp] theorem State.begin_txbuf : s.begin.txbuf = s.txbuf := rfl
@[simp] theorem State.begin_held : s.begin.held = s.held := rfl
@[simp] theorem State.begin_payload : s.begin.payload = s.payload := rfl
@[simp] theorem State.begin_outputs : s.begin.outputs = [] := rfl
@[simp] theorem State.begin_inbox : s.begin.inbox = s.inbox := rfl
@[simp] theorem State.begin_answers : s.begin.answers = s.answers := rfl
@[simp] theorem State.begin_timerFailStatus : s.begin.timerFailStatus = s.timerFailStatus := rfl
@[simp] theorem State.begin_freeCount : s.begin.freeCount = s.freeCount := rfl

@[simp] theorem State.emit_ctxValid (o : Output) : (s.emit o).ctxValid = s.ctxValid := rfl
@[simp] theorem State.emit_sched (o : Output) : (s.emit o).sched = s.sched := rfl
@[simp] theorem State.emit_tickPending (o : Output) : (s.emit o).tickPending = s.tickPending := rfl
@[simp] theorem State.emit_cfg (o : Output) : (s.emit o).cfg = s.cfg := rfl
@[simp] theorem State.emit_txbuf (o : Output) : (s.emit o).txbuf = s.txbuf := rfl
@[simp] theorem State.emit_held (o : Output) : (s.emit o).held = s.held := rfl
@[simp] theorem State.emit_payload (o : Output) : (s.emit o).payload = s.payload := rfl
@[simp] theorem State.emit_outputs (o : Output) : (s.emit o).outputs = s.outputs ++ [o] := rfl
@[simp] theorem State.emit_inbox (o : Output) : (s.emit o).inbox = s.inbox := rfl
@[simp] theorem State.emit_answers (o : Output) : (s.emit o).answers = s.answers := rfl
@[simp] theorem State.emit_timerFailStatus (o : Output) : (s.emit o).timerFailStatus = s.timerFailStatus := rfl
@[simp] theorem State.emit_freeCount (o : Output) : (s.emit o).freeCount = s.freeCount := rfl

@[simp] theorem State.loseBuffer_ctxValid : s.loseBuffer.ctxValid = s.ctxValid := rfl
@[simp] theorem State.loseBuffer_sched : s.loseBuffer.sched = s.sched := rfl
@[simp] theorem State.loseBuffer_tickPending : s.loseBuffer.tickPending = s.tickPending := rfl
@[simp] theorem State.loseBuffer_cfg : s.loseBuffer.cfg = s.cfg := rfl
@[simp] theorem State.loseBuffer_txbuf : s.loseBuffer.txbuf = Memory.unspecified := rfl
@[simp] theorem State.loseBuffer_held : s.loseBuffer.held = s.held := rfl
@[simp] theorem State.loseBuffer_payload : s.loseBuffer.payload = s.payload := rfl
@[simp] theorem State.loseBuffer_outputs : s.loseBuffer.outputs = s.outputs := rfl
@[simp] theorem State.loseBuffer_inbox : s.loseBuffer.inbox = s.inbox := rfl
@[simp] theorem State.loseBuffer_answers : s.loseBuffer.answers = s.answers := rfl
@[simp] theorem State.loseBuffer_timerFailStatus : s.loseBuffer.timerFailStatus = s.timerFailStatus := rfl
@[simp] theorem State.loseBuffer_freeCount : s.loseBuffer.freeCount = s.freeCount := rfl

@[simp] theorem State.askAlloc_ctxValid (n : Nat) : (s.askAlloc n).ctxValid = s.ctxValid := rfl
@[simp] theorem State.askAlloc_sched (n : Nat) : (s.askAlloc n).sched = s.sched := rfl
@[simp] theorem State.askAlloc_tickPending (n : Nat) : (s.askAlloc n).tickPending = s.tickPending := rfl
@[simp] theorem State.askAlloc_cfg (n : Nat) : (s.askAlloc n).cfg = s.cfg := rfl
@[simp] theorem State.askAlloc_txbuf (n : Nat) : (s.askAlloc n).txbuf = s.txbuf := rfl
@[simp] theorem State.askAlloc_held (n : Nat) : (s.askAlloc n).held = s.held := rfl
@[simp] theorem State.askAlloc_payload (n : Nat) : (s.askAlloc n).payload = s.payload := rfl
@[simp] theorem State.askAlloc_outputs (n : Nat) : (s.askAlloc n).outputs = s.outputs ++ [.allocReq (BitVec.ofNat 14 n)] := rfl
@[simp] theorem State.askAlloc_inbox (n : Nat) : (s.askAlloc n).inbox = s.inbox := rfl
@[simp] theorem State.askAlloc_answers (n : Nat) : (s.askAlloc n).answers = s.answers := rfl
@[simp] theorem State.askAlloc_timerFailStatus (n : Nat) : (s.askAlloc n).timerFailStatus = s.timerFailStatus := rfl
@[simp] theorem State.askAlloc_freeCount (n : Nat) : (s.askAlloc n).freeCount = s.freeCount := rfl

@[simp] theorem State.takeBuffer_ctxValid (n : Nat) : (s.takeBuffer n).ctxValid = s.ctxValid := rfl
@[simp] theorem State.takeBuffer_sched (n : Nat) : (s.takeBuffer n).sched = s.sched := rfl
@[simp] theorem State.takeBuffer_tickPending (n : Nat) : (s.takeBuffer n).tickPending = s.tickPending := rfl
@[simp] theorem State.takeBuffer_cfg (n : Nat) : (s.takeBuffer n).cfg = s.cfg := rfl
@[simp] theorem State.takeBuffer_txbuf (n : Nat) : (s.takeBuffer n).txbuf = s.txbuf.zeroFill n := rfl
@[simp] theorem State.takeBuffer_held (n : Nat) : (s.takeBuffer n).held = { s.held with buffer := true } := rfl
@[simp] theorem State.takeBuffer_payload (n : Nat) : (s.takeBuffer n).payload = s.payload := rfl
@[simp] theorem State.takeBuffer_outputs (n : Nat) : (s.takeBuffer n).outputs = s.outputs := rfl
@[simp] theorem State.takeBuffer_inbox (n : Nat) : (s.takeBuffer n).inbox = s.inbox := rfl
@[simp] theorem State.takeBuffer_answers (n : Nat) : (s.takeBuffer n).answers = s.answers := rfl
@[simp] theorem State.takeBuffer_timerFailStatus (n : Nat) : (s.takeBuffer n).timerFailStatus = s.timerFailStatus := rfl
@[simp] theorem State.takeBuffer_freeCount (n : Nat) : (s.takeBuffer n).freeCount = s.freeCount := rfl

@[simp] theorem State.freeBuffer_ctxValid : s.freeBuffer.ctxValid = s.ctxValid := rfl
@[simp] theorem State.freeBuffer_sched : s.freeBuffer.sched = s.sched := rfl
@[simp] theorem State.freeBuffer_tickPending : s.freeBuffer.tickPending = s.tickPending := rfl
@[simp] theorem State.freeBuffer_cfg : s.freeBuffer.cfg = s.cfg := rfl
@[simp] theorem State.freeBuffer_txbuf : s.freeBuffer.txbuf = Memory.unspecified := rfl
@[simp] theorem State.freeBuffer_held : s.freeBuffer.held = { s.held with buffer := false } := rfl
@[simp] theorem State.freeBuffer_payload : s.freeBuffer.payload = s.payload := rfl
@[simp] theorem State.freeBuffer_outputs : s.freeBuffer.outputs = s.outputs ++ [.allocFree] := rfl
@[simp] theorem State.freeBuffer_inbox : s.freeBuffer.inbox = s.inbox := rfl
@[simp] theorem State.freeBuffer_answers : s.freeBuffer.answers = s.answers := rfl
@[simp] theorem State.freeBuffer_timerFailStatus : s.freeBuffer.timerFailStatus = s.timerFailStatus := rfl
@[simp] theorem State.freeBuffer_freeCount : s.freeBuffer.freeCount = s.freeCount := rfl

@[simp] theorem State.askOpen_ctxValid (c : BusCfg) : (s.askOpen c).ctxValid = s.ctxValid := rfl
@[simp] theorem State.askOpen_sched (c : BusCfg) : (s.askOpen c).sched = s.sched := rfl
@[simp] theorem State.askOpen_tickPending (c : BusCfg) : (s.askOpen c).tickPending = s.tickPending := rfl
@[simp] theorem State.askOpen_cfg (c : BusCfg) : (s.askOpen c).cfg = s.cfg := rfl
@[simp] theorem State.askOpen_txbuf (c : BusCfg) : (s.askOpen c).txbuf = s.txbuf := rfl
@[simp] theorem State.askOpen_held (c : BusCfg) : (s.askOpen c).held = s.held := rfl
@[simp] theorem State.askOpen_payload (c : BusCfg) : (s.askOpen c).payload = s.payload := rfl
@[simp] theorem State.askOpen_outputs (c : BusCfg) : (s.askOpen c).outputs = s.outputs ++ [.openReq c] := rfl
@[simp] theorem State.askOpen_inbox (c : BusCfg) : (s.askOpen c).inbox = s.inbox := rfl
@[simp] theorem State.askOpen_answers (c : BusCfg) : (s.askOpen c).answers = s.answers := rfl
@[simp] theorem State.askOpen_timerFailStatus (c : BusCfg) : (s.askOpen c).timerFailStatus = s.timerFailStatus := rfl
@[simp] theorem State.askOpen_freeCount (c : BusCfg) : (s.askOpen c).freeCount = s.freeCount := rfl

@[simp] theorem State.takeTransport_ctxValid : s.takeTransport.ctxValid = s.ctxValid := rfl
@[simp] theorem State.takeTransport_sched : s.takeTransport.sched = s.sched := rfl
@[simp] theorem State.takeTransport_tickPending : s.takeTransport.tickPending = s.tickPending := rfl
@[simp] theorem State.takeTransport_cfg : s.takeTransport.cfg = s.cfg := rfl
@[simp] theorem State.takeTransport_txbuf : s.takeTransport.txbuf = s.txbuf := rfl
@[simp] theorem State.takeTransport_held : s.takeTransport.held = { s.held with transport := true } := rfl
@[simp] theorem State.takeTransport_payload : s.takeTransport.payload = s.payload := rfl
@[simp] theorem State.takeTransport_outputs : s.takeTransport.outputs = s.outputs := rfl
@[simp] theorem State.takeTransport_inbox : s.takeTransport.inbox = s.inbox := rfl
@[simp] theorem State.takeTransport_answers : s.takeTransport.answers = s.answers := rfl
@[simp] theorem State.takeTransport_timerFailStatus : s.takeTransport.timerFailStatus = s.timerFailStatus := rfl
@[simp] theorem State.takeTransport_freeCount : s.takeTransport.freeCount = s.freeCount := rfl

@[simp] theorem State.closeTransport_ctxValid : s.closeTransport.ctxValid = s.ctxValid := rfl
@[simp] theorem State.closeTransport_sched : s.closeTransport.sched = s.sched := rfl
@[simp] theorem State.closeTransport_tickPending : s.closeTransport.tickPending = s.tickPending := rfl
@[simp] theorem State.closeTransport_cfg : s.closeTransport.cfg = s.cfg := rfl
@[simp] theorem State.closeTransport_txbuf : s.closeTransport.txbuf = s.txbuf := rfl
@[simp] theorem State.closeTransport_held : s.closeTransport.held = { s.held with transport := false } := rfl
@[simp] theorem State.closeTransport_payload : s.closeTransport.payload = s.payload := rfl
@[simp] theorem State.closeTransport_outputs : s.closeTransport.outputs = s.outputs ++ [.closeReq] := rfl
@[simp] theorem State.closeTransport_inbox : s.closeTransport.inbox = s.inbox := rfl
@[simp] theorem State.closeTransport_answers : s.closeTransport.answers = s.answers := rfl
@[simp] theorem State.closeTransport_timerFailStatus : s.closeTransport.timerFailStatus = s.timerFailStatus := rfl
@[simp] theorem State.closeTransport_freeCount : s.closeTransport.freeCount = s.freeCount := rfl

@[simp] theorem State.askTimer_ctxValid (p : BitVec 20) : (s.askTimer p).ctxValid = s.ctxValid := rfl
@[simp] theorem State.askTimer_sched (p : BitVec 20) : (s.askTimer p).sched = s.sched := rfl
@[simp] theorem State.askTimer_tickPending (p : BitVec 20) : (s.askTimer p).tickPending = s.tickPending := rfl
@[simp] theorem State.askTimer_cfg (p : BitVec 20) : (s.askTimer p).cfg = s.cfg := rfl
@[simp] theorem State.askTimer_txbuf (p : BitVec 20) : (s.askTimer p).txbuf = s.txbuf := rfl
@[simp] theorem State.askTimer_held (p : BitVec 20) : (s.askTimer p).held = s.held := rfl
@[simp] theorem State.askTimer_payload (p : BitVec 20) : (s.askTimer p).payload = s.payload := rfl
@[simp] theorem State.askTimer_outputs (p : BitVec 20) : (s.askTimer p).outputs = s.outputs ++ [.timerStart p] := rfl
@[simp] theorem State.askTimer_inbox (p : BitVec 20) : (s.askTimer p).inbox = s.inbox := rfl
@[simp] theorem State.askTimer_answers (p : BitVec 20) : (s.askTimer p).answers = s.answers := rfl
@[simp] theorem State.askTimer_timerFailStatus (p : BitVec 20) : (s.askTimer p).timerFailStatus = s.timerFailStatus := rfl
@[simp] theorem State.askTimer_freeCount (p : BitVec 20) : (s.askTimer p).freeCount = s.freeCount := rfl

@[simp] theorem State.takeTimer_ctxValid : s.takeTimer.ctxValid = s.ctxValid := rfl
@[simp] theorem State.takeTimer_sched : s.takeTimer.sched = s.sched := rfl
@[simp] theorem State.takeTimer_tickPending : s.takeTimer.tickPending = s.tickPending := rfl
@[simp] theorem State.takeTimer_cfg : s.takeTimer.cfg = s.cfg := rfl
@[simp] theorem State.takeTimer_txbuf : s.takeTimer.txbuf = s.txbuf := rfl
@[simp] theorem State.takeTimer_held : s.takeTimer.held = { s.held with timer := true } := rfl
@[simp] theorem State.takeTimer_payload : s.takeTimer.payload = s.payload := rfl
@[simp] theorem State.takeTimer_outputs : s.takeTimer.outputs = s.outputs := rfl
@[simp] theorem State.takeTimer_inbox : s.takeTimer.inbox = s.inbox := rfl
@[simp] theorem State.takeTimer_answers : s.takeTimer.answers = s.answers := rfl
@[simp] theorem State.takeTimer_timerFailStatus : s.takeTimer.timerFailStatus = s.timerFailStatus := rfl
@[simp] theorem State.takeTimer_freeCount : s.takeTimer.freeCount = s.freeCount := rfl

@[simp] theorem State.commit_ctxValid (c : Cfg) : (s.commit c).ctxValid = true := rfl
@[simp] theorem State.commit_sched (c : Cfg) : (s.commit c).sched = .idle := rfl
@[simp] theorem State.commit_tickPending (c : Cfg) : (s.commit c).tickPending = false := rfl
@[simp] theorem State.commit_cfg (c : Cfg) : (s.commit c).cfg = c := rfl
@[simp] theorem State.commit_txbuf (c : Cfg) : (s.commit c).txbuf = s.txbuf := rfl
@[simp] theorem State.commit_held (c : Cfg) : (s.commit c).held = s.held := rfl
@[simp] theorem State.commit_payload (c : Cfg) : (s.commit c).payload = s.payload := rfl
@[simp] theorem State.commit_outputs (c : Cfg) : (s.commit c).outputs = s.outputs := rfl
@[simp] theorem State.commit_inbox (c : Cfg) : (s.commit c).inbox = s.inbox := rfl
@[simp] theorem State.commit_answers (c : Cfg) : (s.commit c).answers = s.answers := rfl
@[simp] theorem State.commit_timerFailStatus (c : Cfg) : (s.commit c).timerFailStatus = s.timerFailStatus := rfl
@[simp] theorem State.commit_freeCount (c : Cfg) : (s.commit c).freeCount = s.freeCount := rfl

@[simp] theorem State.deliver_ctxValid (w : Answers) (b : List Moment) : (s.deliver w b).ctxValid = s.ctxValid := rfl
@[simp] theorem State.deliver_sched (w : Answers) (b : List Moment) : (s.deliver w b).sched = s.sched := rfl
@[simp] theorem State.deliver_tickPending (w : Answers) (b : List Moment) : (s.deliver w b).tickPending = s.tickPending := rfl
@[simp] theorem State.deliver_cfg (w : Answers) (b : List Moment) : (s.deliver w b).cfg = s.cfg := rfl
@[simp] theorem State.deliver_txbuf (w : Answers) (b : List Moment) : (s.deliver w b).txbuf = s.txbuf := rfl
@[simp] theorem State.deliver_held (w : Answers) (b : List Moment) : (s.deliver w b).held = s.held := rfl
@[simp] theorem State.deliver_payload (w : Answers) (b : List Moment) : (s.deliver w b).payload = s.payload := rfl
@[simp] theorem State.deliver_outputs (w : Answers) (b : List Moment) : (s.deliver w b).outputs = s.outputs := rfl
@[simp] theorem State.deliver_inbox (w : Answers) (b : List Moment) : (s.deliver w b).inbox = b := rfl
@[simp] theorem State.deliver_answers (w : Answers) (b : List Moment) : (s.deliver w b).answers = w := rfl
@[simp] theorem State.deliver_timerFailStatus (w : Answers) (b : List Moment) : (s.deliver w b).timerFailStatus = s.timerFailStatus := rfl
@[simp] theorem State.deliver_freeCount (w : Answers) (b : List Moment) : (s.deliver w b).freeCount = s.freeCount := rfl

@[simp] theorem State.wait_ctxValid : s.wait.ctxValid = s.ctxValid := rfl
@[simp] theorem State.wait_sched : s.wait.sched = s.sched := rfl
@[simp] theorem State.wait_tickPending : s.wait.tickPending = s.tickPending := rfl
@[simp] theorem State.wait_cfg : s.wait.cfg = s.cfg := rfl
@[simp] theorem State.wait_txbuf : s.wait.txbuf = s.txbuf := rfl
@[simp] theorem State.wait_held : s.wait.held = s.held := rfl
@[simp] theorem State.wait_payload : s.wait.payload = s.payload := rfl
@[simp] theorem State.wait_outputs : s.wait.outputs = [] := rfl
@[simp] theorem State.wait_inbox : s.wait.inbox = [] := rfl
@[simp] theorem State.wait_answers : s.wait.answers = s.answers := rfl
@[simp] theorem State.wait_timerFailStatus : s.wait.timerFailStatus = s.timerFailStatus := rfl
@[simp] theorem State.wait_freeCount : s.wait.freeCount = s.freeCount := rfl

/-! SET_PIXEL's store: everything but TXBUF, payload and free-value count stays. -/

@[simp] theorem State.store_ctxValid (a : Nat) (bs : List Byte) : (s.store a bs).ctxValid = s.ctxValid := by
  unfold State.store; cases s.sched <;> rfl
@[simp] theorem State.store_sched (a : Nat) (bs : List Byte) : (s.store a bs).sched = s.sched := by
  unfold State.store; cases s.sched <;> rfl
@[simp] theorem State.store_tickPending (a : Nat) (bs : List Byte) : (s.store a bs).tickPending = s.tickPending := by
  unfold State.store; cases s.sched <;> rfl
@[simp] theorem State.store_cfg (a : Nat) (bs : List Byte) : (s.store a bs).cfg = s.cfg := by
  unfold State.store; cases s.sched <;> rfl
@[simp] theorem State.store_txbuf (a : Nat) (bs : List Byte) : (s.store a bs).txbuf = s.txbuf.writeBytes a bs := by
  unfold State.store; cases s.sched <;> rfl
@[simp] theorem State.store_held (a : Nat) (bs : List Byte) : (s.store a bs).held = s.held := by
  unfold State.store; cases s.sched <;> rfl
@[simp] theorem State.store_outputs (a : Nat) (bs : List Byte) : (s.store a bs).outputs = s.outputs := by
  unfold State.store; cases s.sched <;> rfl
@[simp] theorem State.store_inbox (a : Nat) (bs : List Byte) : (s.store a bs).inbox = s.inbox := by
  unfold State.store; cases s.sched <;> rfl
@[simp] theorem State.store_answers (a : Nat) (bs : List Byte) : (s.store a bs).answers = s.answers := by
  unfold State.store; cases s.sched <;> rfl
@[simp] theorem State.store_timerFailStatus (a : Nat) (bs : List Byte) : (s.store a bs).timerFailStatus = s.timerFailStatus := by
  unfold State.store; cases s.sched <;> rfl

theorem State.store_payload_transmitting (a : Nat) (bs : List Byte) (h : s.sched = .transmitting) :
    (s.store a bs).payload = s.payload.race s.freeCount a bs := by
  unfold State.store; rw [h]

theorem State.store_payload_quiet (a : Nat) (bs : List Byte) (h : s.sched ≠ .transmitting) :
    (s.store a bs).payload = s.payload := by
  unfold State.store; cases hs : s.sched <;> simp_all

theorem State.store_freeCount_transmitting (a : Nat) (bs : List Byte) (h : s.sched = .transmitting) :
    (s.store a bs).freeCount = s.freeCount + 1 := by
  unfold State.store; rw [h]

theorem State.store_freeCount_quiet (a : Nat) (bs : List Byte) (h : s.sched ≠ .transmitting) :
    (s.store a bs).freeCount = s.freeCount := by
  unfold State.store; cases hs : s.sched <;> simp_all

end Sys2Proof.Machine
end

