-- ==== Sys2Proof/Laws/Memory.lean ====
section
/-! SUPPORT. The laws of the byte memory: what each operation reads as, which offsets it lists, and that it keeps the
canonical form. None but the last group needs the canonical form. -/

namespace Sys2Proof.Machine

/-! ### The number of bytes -/

@[simp] theorem beBytes_length (n : Nat) {w : Nat} (v : BitVec w) : (beBytes n v).length = n := by
  simp [beBytes]

@[simp] theorem encodeFrame_length (desc : Desc) : (encodeFrame desc).length = 8 := by
  simp [encodeFrame, Config.frameBytes]

theorem beBytes_getElem? (n : Nat) {w : Nat} (v : BitVec w) (k : Nat) (h : k < n) :
    (beBytes n v)[k]? = some (v.extractLsb' (8 * (n - 1 - k)) 8) := by
  simp [beBytes, h]

/-! ### Reading after an operation -/

@[simp] theorem Memory.read_unspecified (a : Nat) : Memory.unspecified.read a = none := rfl

theorem Memory.read_write (m : Memory) (a a' : Nat) (b : Byte) :
    (m.write a b).read a' = if a' = a then some b else m.read a' := by
  induction m with
  | nil => by_cases h : a = a' <;> simp [Memory.write, Memory.read, h, eq_comm]
  | cons c m ih =>
    unfold Memory.write
    split
    · by_cases h : a = a' <;> simp [Memory.read, h, eq_comm]
    · split
      · next h =>
        subst h
        by_cases h' : c.1 = a'
        · simp [Memory.read, h']
        · have h'' : a' ≠ c.1 := fun e => h' e.symm
          simp [Memory.read, h', h'']
      · next h =>
        by_cases h' : c.1 = a'
        · have : a' ≠ a := fun e => h (by omega)
          simp [Memory.read, h', this]
        · simp [Memory.read, h', ih]

theorem Memory.read_writeBytes_outside (bs : List Byte) :
    ∀ (m : Memory) (a o : Nat), o < a ∨ a + bs.length ≤ o → (m.writeBytes a bs).read o = m.read o := by
  induction bs with
  | nil => intro m a o _; rfl
  | cons b bs ih =>
    intro m a o h
    simp only [List.length_cons] at h
    rw [Memory.writeBytes, ih _ _ _ (by omega), Memory.read_write, if_neg (by omega)]

theorem Memory.read_writeBytes_inside (bs : List Byte) :
    ∀ (m : Memory) (a k : Nat), k < bs.length → (m.writeBytes a bs).read (a + k) = bs[k]? := by
  induction bs with
  | nil => intro m a k h; simp at h
  | cons b bs ih =>
    intro m a k h
    rw [Memory.writeBytes]
    cases k with
    | zero => rw [Memory.read_writeBytes_outside _ _ _ _ (by omega), Memory.read_write]; simp
    | succ k =>
      have h' : k < bs.length := by simpa using h
      have := ih (m.write a b) (a + 1) k h'
      rw [show a + 1 + k = a + (k + 1) by omega] at this
      simpa using this

/-- A store of bytes, said once: inside, the bytes; outside, what was there. -/
theorem Memory.read_writeBytes (bs : List Byte) (m : Memory) (a o : Nat) :
    (m.writeBytes a bs).read o = if a ≤ o ∧ o < a + bs.length then bs[o - a]? else m.read o := by
  split
  · next h =>
    have := Memory.read_writeBytes_inside bs m a (o - a) (by omega)
    rwa [show a + (o - a) = o by omega] at this
  · next h => exact Memory.read_writeBytes_outside bs m a o (by omega)

theorem Memory.read_append (m m' : Memory) (a : Nat) : Memory.read a (m ++ m') = (m.read a).or (m'.read a) := by
  induction m with
  | nil => simp [Memory.read, Memory.unlisted]
  | cons c m ih =>
    rw [List.cons_append, Memory.read, Memory.read]
    split
    · rfl
    · exact ih

theorem Memory.read_filter (m : Memory) (p : Nat → Bool) (a : Nat) :
    Memory.read a (m.filter fun c => p c.1) = if p a then m.read a else none := by
  induction m with
  | nil => simp [Memory.read, Memory.unlisted]
  | cons c m ih =>
    rw [List.filter_cons]
    by_cases hp : p c.1 <;> by_cases h : c.1 = a <;> simp_all [Memory.read]

theorem Memory.read_map_zero (l : List Nat) (a : Nat) :
    Memory.read a (l.map fun o => ((o, 0#8) : Host.Cell)) = if a ∈ l then some 0#8 else none := by
  induction l with
  | nil => simp [Memory.read, Memory.unlisted]
  | cons o l ih =>
    rw [List.map_cons, Memory.read, ih]
    by_cases h : o = a
    · simp [h]
    · have h' : a ≠ o := fun e => h e.symm
      simp [h, h']

/-- INIT's zero-fill: zero below `n`, what was there above. -/
theorem Memory.read_zeroFill (m : Memory) (n a : Nat) :
    (m.zeroFill n).read a = if a < n then some 0#8 else m.read a := by
  have hf := Memory.read_filter m (fun k => decide (n ≤ k)) a
  rw [Memory.zeroFill, Memory.read_append, Memory.read_map_zero, hf]
  by_cases h : a < n
  · simp [h]
  · have : n ≤ a := by omega
    simp [h, this]

theorem Memory.read_upTo (m : Memory) (n a : Nat) : (m.upTo n).read a = if a < n then m.read a else none := by
  have := Memory.read_filter m (fun k => decide (k < n)) a
  simpa [Memory.upTo] using this

/-- A raced payload reads at each offset as before, or, at a stored offset that had a value, as the stored byte. -/
theorem Memory.read_race (m : Memory) (draw a o : Nat) (bs : List Byte) :
    (m.race draw a bs).read o =
      if a ≤ o ∧ o < a + bs.length ∧ Config.transportReadsNew draw (o - a) = true then
        (m.read o).map (fun b => bs.getD (o - a) b)
      else m.read o := by
  induction m with
  | nil => simp [Memory.race, Memory.read, Memory.unlisted]
  | cons c m ih =>
    rw [Memory.race, List.map_cons, Memory.read, Memory.read]
    rw [Memory.race] at ih
    by_cases h : c.1 = o
    · subst h; split <;> simp
    · have : (if a ≤ c.1 ∧ c.1 < a + bs.length ∧ Config.transportReadsNew draw (c.1 - a) = true then
          (c.1, bs.getD (c.1 - a) c.2) else c).1 = c.1 := by split <;> rfl
      rw [this, if_neg h, if_neg h, ih]

/-! ### Which offsets are listed -/

theorem Memory.race_offsets (m : Memory) (draw a : Nat) (bs : List Byte) :
    (m.race draw a bs).map Prod.fst = m.map Prod.fst := by
  induction m with
  | nil => rfl
  | cons c m ih =>
    rw [Memory.race, List.map_cons, List.map_cons, List.map_cons, ← Memory.race, ih]
    congr 1
    split <;> rfl

theorem Memory.write_offsets (m : Memory) (a : Nat) (b : Byte) (hs : (m.map Prod.fst).Pairwise (· < ·))
    (ha : a ∈ m.map Prod.fst) : (m.write a b).map Prod.fst = m.map Prod.fst := by
  induction m with
  | nil => simp at ha
  | cons c m ih =>
    rw [List.map_cons, List.pairwise_cons] at hs
    rw [List.map_cons, List.mem_cons] at ha
    unfold Memory.write
    split
    · next h =>
      rcases ha with ha | ha
      · omega
      · have := hs.1 a ha; omega
    · split
      · next h => simp [h]
      · next h => rw [List.map_cons, List.map_cons, ih hs.2 (ha.resolve_left (by omega))]

theorem Memory.write_covers (m : Memory) (n a : Nat) (b : Byte) (h : Covers n m) (ha : a < n) :
    Covers n (m.write a b) := by
  unfold Covers at *
  rw [Memory.write_offsets m a b (by rw [h]; exact List.pairwise_lt_range) (by rw [h]; simpa using ha), h]

theorem Memory.writeBytes_covers (bs : List Byte) :
    ∀ (m : Memory) (n a : Nat), Covers n m → a + bs.length ≤ n → Covers n (m.writeBytes a bs) := by
  induction bs with
  | nil => intro m n a h _; exact h
  | cons b bs ih =>
    intro m n a h hn
    simp only [List.length_cons] at hn
    exact ih _ _ _ (Memory.write_covers m n a b h (by omega)) (by omega)

theorem Memory.upTo_covers (m : Memory) (n : Nat) (h : Covers n m) : m.upTo n = m := by
  unfold Covers at h
  rw [Memory.upTo, List.filter_eq_self]
  intro c hc
  have : c.1 ∈ m.map Prod.fst := List.mem_map_of_mem hc
  rw [h] at this
  simpa using this

/-- After a failed INIT or a reset nothing is listed, and INIT then lists exactly the buffer. -/
theorem Memory.zeroFill_unspecified_covers (n : Nat) : Covers n (Memory.zeroFill n Memory.unspecified) := by
  unfold Covers
  simp [Memory.zeroFill, Memory.unspecified, Function.comp_def]

/-! ### The canonical form is kept -/

theorem Memory.wf_iff (m : Memory) :
    m.wf = true ↔ (m.map Prod.fst).Pairwise (· < ·) ∧ ∀ a ∈ m.map Prod.fst, a < Config.bufCapacity := by
  simp [Memory.wf, Memory.unlisted, List.pairwise_map]

theorem Memory.wf_of_offsets {m m' : Memory} (h : m'.map Prod.fst = m.map Prod.fst) (hm : m.wf = true) :
    m'.wf = true := by
  rw [Memory.wf_iff] at *
  rwa [h]

theorem Memory.wf_unspecified : Memory.unspecified.wf = true := by decide

theorem Memory.wf_race (m : Memory) (draw a : Nat) (bs : List Byte) (h : m.wf = true) :
    (m.race draw a bs).wf = true :=
  Memory.wf_of_offsets (Memory.race_offsets m draw a bs) h

theorem Memory.mem_write_offsets (m : Memory) (a : Nat) (b : Byte) (x : Nat) :
    x ∈ (m.write a b).map Prod.fst ↔ x = a ∨ x ∈ m.map Prod.fst := by
  induction m with
  | nil => simp [Memory.write]
  | cons c m ih =>
    unfold Memory.write
    split
    · simp
    · split
      · next h => simp [h]
      · rw [List.map_cons, List.mem_cons, ih, List.map_cons, List.mem_cons]; tauto

theorem Memory.write_sorted (m : Memory) (a : Nat) (b : Byte) (h : (m.map Prod.fst).Pairwise (· < ·)) :
    ((m.write a b).map Prod.fst).Pairwise (· < ·) := by
  induction m with
  | nil => simp [Memory.write]
  | cons c m ih =>
    have hc := h
    rw [List.map_cons, List.pairwise_cons] at h
    unfold Memory.write
    split
    · next hlt =>
      rw [List.map_cons, List.pairwise_cons]
      refine ⟨fun x hx => ?_, hc⟩
      rw [List.map_cons, List.mem_cons] at hx
      rcases hx with rfl | hx
      · exact hlt
      · exact lt_trans hlt (h.1 x hx)
    · split
      · next heq => subst heq; rw [List.map_cons, List.pairwise_cons]; exact ⟨h.1, h.2⟩
      · next h1 h2 =>
        rw [List.map_cons, List.pairwise_cons]
        refine ⟨fun x hx => ?_, ih h.2⟩
        rcases (Memory.mem_write_offsets m a b x).1 hx with rfl | hx
        · omega
        · exact h.1 x hx

theorem Memory.wf_write (m : Memory) (a : Nat) (b : Byte) (h : m.wf = true) (ha : a < Config.bufCapacity) :
    (m.write a b).wf = true := by
  rw [Memory.wf_iff] at *
  refine ⟨Memory.write_sorted m a b h.1, fun x hx => ?_⟩
  rcases (Memory.mem_write_offsets m a b x).1 hx with rfl | hx
  · exact ha
  · exact h.2 x hx

theorem Memory.wf_writeBytes (bs : List Byte) :
    ∀ (m : Memory) (a : Nat), m.wf = true → a + bs.length ≤ Config.bufCapacity → (m.writeBytes a bs).wf = true := by
  induction bs with
  | nil => intro m a h _; exact h
  | cons b bs ih =>
    intro m a h hn
    simp only [List.length_cons] at hn
    exact ih _ _ (Memory.wf_write m a b h (by omega)) (by omega)

theorem Memory.wf_filter (m : Memory) (p : Host.Cell → Bool) (h : m.wf = true) : Memory.wf (m.filter p) = true := by
  rw [Memory.wf_iff] at *
  have hs : (List.filter p m).map Prod.fst |>.Sublist (m.map Prod.fst) := List.filter_sublist.map _
  exact ⟨h.1.sublist hs, fun a ha => h.2 a (hs.subset ha)⟩

theorem Memory.wf_upTo (m : Memory) (n : Nat) (h : m.wf = true) : (m.upTo n).wf = true := Memory.wf_filter m _ h

theorem Memory.wf_zeroFill (m : Memory) (n : Nat) (h : m.wf = true) (hn : n ≤ Config.bufCapacity) :
    (m.zeroFill n).wf = true := by
  have hf := Memory.wf_filter m (fun c => decide (n ≤ c.1)) h
  rw [Memory.wf_iff] at hf ⊢
  have hz : ((List.range n).map fun o => ((o, 0#8) : Host.Cell)).map Prod.fst = List.range n := by
    simp [Function.comp_def]
  rw [Memory.zeroFill, List.map_append, hz]
  refine ⟨List.pairwise_append.2 ⟨List.pairwise_lt_range, hf.1, fun x hx y hy => ?_⟩, fun a ha => ?_⟩
  · obtain ⟨c, hc, rfl⟩ := List.mem_map.1 hy
    have : n ≤ c.1 := by simpa using (List.mem_filter.1 hc).2
    have : x < n := by simpa using hx
    omega
  · rcases List.mem_append.1 ha with ha | ha
    · have : a < n := by simpa using ha
      omega
    · exact hf.2 a ha

theorem State.reset_txbuf_wf : State.reset.txbuf.wf = true := by decide

end Sys2Proof.Machine
end

