-- ==== Sys2Proof/Laws/Ops.lean ====
section
/-! SUPPORT. One lemma for each shared operation and each meaning that says everything it can do, for the provers to cite
instead of unfolding it. -/

namespace Sys2Proof.Machine

/-! ### The end of an operation -/

@[simp] theorem finish_eq (s : State) : finish s = .next s := rfl

@[simp] theorem raise_eq (st : Status) (s : State) : raise st s = .next (s.emit (.response st)) := rfl

@[simp] theorem returnOk_eq (s : State) : returnOk s = .next (s.emit (.response .ok)) := rfl

/-! ### Derived numbers -/

theorem bufLenOf_eq (n : Nat) : bufLenOf n = 16 + n * 8 := rfl

theorem bufLen_eq (cfg : Cfg) : bufLen cfg = 16 + cfg.stripLength.toNat * 8 := rfl

theorem bufCapacity_eq : Config.bufCapacity = 8208 := rfl

theorem pixelOffset_eq (index : BitVec 32) : pixelOffset index = 16 + index.toNat * 8 := rfl

theorem bufLen_le_capacity {cfg : Cfg} (h : cfg.stripLength.toNat ≤ 1024) : bufLen cfg ≤ Config.bufCapacity := by
  rw [bufLen_eq, bufCapacity_eq]; omega

/-- The record keeps a strip length that passed check 1 (10_state.md R24). -/
theorem cfgOf_stripLength {busId dataPin clockPin : BitVec 8} {cb : BitVec 1} {fc : BitVec 4} {len : BitVec 16}
    {clk : BitVec 32} (h : len.toNat ≤ 1024) :
    (cfgOf busId dataPin clockPin cb fc len clk).stripLength.toNat = len.toNat := by
  simp only [cfgOf, BitVec.toNat_setWidth]
  exact Nat.mod_eq_of_lt (by omega)

/-! ### Checks -/

/-- The validator passes exactly when the four checks pass (40_init.md R121 to R126). -/
theorem validate_eq_none {cb : BitVec 1} {fc : BitVec 4} {len : BitVec 16} {clk : BitVec 32} :
    validate cb fc len clk = none ↔
      1 ≤ len.toNat ∧ len.toNat ≤ 1024 ∧ clk.toNat ≤ 40000000 ∧ cb = 1#1 ∧
        requiredRate len.toNat (freqHz fc) ≤ clk.toNat := by
  have hcb : cb ≠ 0#1 ↔ cb = 1#1 := by revert cb; decide
  have hr : ∀ {P : Prop}, (cb = 1#1 ∧ P ↔ ¬cb = 0#1 ∧ P) := by intro P; rw [← hcb]
  rw [hr]
  unfold validate Config.minStripLength Config.maxStripLength Config.clockCeilingHz
  by_cases h1 : len.toNat < 1 ∨ 1024 < len.toNat
  · simp only [if_pos h1]
    constructor <;> intro e
    · exact absurd e (by simp)
    · omega
  by_cases h2 : 40000000 < clk.toNat
  · simp only [if_neg h1, if_pos h2]
    constructor <;> intro e
    · exact absurd e (by simp)
    · omega
  by_cases h3 : cb = 0#1
  · simp only [if_neg h1, if_neg h2, if_pos h3]
    constructor <;> intro e
    · exact absurd e (by simp)
    · exact absurd h3 e.2.2.2.1
  by_cases h4 : clk.toNat < requiredRate len.toNat (freqHz fc)
  · simp only [if_neg h1, if_neg h2, if_neg h3, if_pos h4]
    constructor <;> intro e
    · exact absurd e (by simp)
    · omega
  · simp only [if_neg h1, if_neg h2, if_neg h3, if_neg h4]
    constructor <;> intro e
    · exact ⟨by omega, by omega, by omega, h3, by omega⟩
    · trivial

/-- The validator's status is a validation error (60_exceptions.md R220 (a)). -/
theorem validate_class {cb : BitVec 1} {fc : BitVec 4} {len : BitVec 16} {clk : BitVec 32} {st : Status}
    (h : validate cb fc len clk = some st) : statusClass st = .validation := by
  unfold validate at h
  split at h
  · cases h; rfl
  split at h
  · cases h; rfl
  split at h
  · cases h; rfl
  split at h
  · cases h; rfl
  · cases h

theorem initCheck_eq_none {cb : BitVec 1} {fc : BitVec 4} {len : BitVec 16} {clk : BitVec 32} {s : State} :
    initCheck cb fc len clk s = none ↔
      legalFreqCode fc = true ∧ validate cb fc len clk = none ∧ s.ctxValid = false := by
  unfold initCheck
  split
  · next h => split <;> simp_all
  · next h => simp [h]

/-- A check that turns INIT away never answers `Ok`. -/
theorem initCheck_ne_ok {cb : BitVec 1} {fc : BitVec 4} {len : BitVec 16} {clk : BitVec 32} {s : State} :
    initCheck cb fc len clk s ≠ some .ok := by
  unfold initCheck
  split
  · split
    · next st h => intro e; cases e; simpa [statusClass] using validate_class h
    · split <;> simp
  · simp

theorem pixelCheck_eq_none {index : BitVec 32} {s : State} :
    pixelCheck index s = none ↔ s.ctxValid = true ∧ index.toNat < s.cfg.stripLength.toNat := by
  unfold pixelCheck
  split
  · next h => simp [h]
  · split
    · simp; omega
    · next h1 h2 => simp at h1; simp [h1]; omega

theorem pixelCheck_noContext {index : BitVec 32} {s : State} (h : s.ctxValid = false) :
    pixelCheck index s = some .invalidParameter := by simp [pixelCheck, h]

theorem pixelCheck_badIndex {index : BitVec 32} {s : State} (h : s.ctxValid = true)
    (hi : s.cfg.stripLength.toNat ≤ index.toNat) : pixelCheck index s = some .indexOutOfRange := by
  simp [pixelCheck, h, hi]

theorem storeOffset_eq_some {index : BitVec 32} {s : State} {a : Nat} :
    storeOffset index s = some a ↔ pixelCheck index s = none ∧ a = pixelOffset index := by
  unfold storeOffset
  cases pixelCheck index s <;> simp [eq_comm]

/-! ### INIT -/

/-- INIT turned away: nothing changes and nothing is asked (40_init.md R128, R129). -/
theorem execInit_rejected {b d c : BitVec 8} {cb : BitVec 1} {fc : BitVec 4} {len : BitVec 16} {clk : BitVec 32}
    {s : State} {st : Status} (h : initCheck cb fc len clk s = some st) :
    execInit b d c cb fc len clk s = .next { s with outputs := [.response st] } := by
  unfold execInit; rw [h]; rfl

theorem execInit_accepted {b d c : BitVec 8} {cb : BitVec 1} {fc : BitVec 4} {len : BitVec 16} {clk : BitVec 32}
    {s : State} (h : initCheck cb fc len clk s = none) :
    execInit b d c cb fc len clk s = acquire (cfgOf b d c cb fc len clk) s.begin := by
  unfold execInit; rw [h]

/-- The allocator fails: nothing is held, TXBUF is unspecified (40_init.md R131, R134). -/
theorem acquire_allocFails {cfg : Cfg} {s : State} (h : s.answers.alloc = .outOfMemory) :
    acquire cfg s =
      .next { s with
        txbuf := Memory.unspecified
        outputs := s.outputs ++ [.allocReq (BitVec.ofNat 14 (bufLen cfg)), .response .outOfMemory] } := by
  unfold acquire
  simp only [State.askAlloc_answers, h]
  simp [State.askAlloc, State.loseBuffer, State.emit]

/-- The transport's open fails: the buffer is freed (40_init.md R132). -/
theorem acquire_openFails {cfg : Cfg} {s : State} {e : ResourceError} (ha : s.answers.alloc = .ok)
    (ht : s.answers.transport = .error e) :
    acquire cfg s =
      .next { s with
        txbuf := Memory.unspecified
        held := { s.held with buffer := false }
        outputs := s.outputs ++ [.allocReq (BitVec.ofNat 14 (bufLen cfg)), .openReq (busCfgOf cfg), .allocFree,
          .response (resourceStatus e)] } := by
  unfold acquire
  simp only [State.askAlloc_answers, ha, State.askOpen_answers, State.takeBuffer_answers, ht]
  simp [State.askAlloc, State.askOpen, State.takeBuffer, State.freeBuffer, State.loseBuffer, State.emit]

/-- The timer start fails: the transport is closed, then the buffer freed (40_init.md R133). -/
theorem acquire_timerFails {cfg : Cfg} {s : State} (ha : s.answers.alloc = .ok) (ht : s.answers.transport = .ok)
    (hm : s.answers.timer = .fail) :
    acquire cfg s =
      .next { s with
        txbuf := Memory.unspecified
        held := { s.held with buffer := false, transport := false }
        outputs := s.outputs ++ [.allocReq (BitVec.ofNat 14 (bufLen cfg)), .openReq (busCfgOf cfg),
          .timerStart (periodUs cfg.freqCode), .closeReq, .allocFree,
          .response (resourceStatus s.timerFailStatus)] } := by
  unfold acquire
  simp only [State.askAlloc_answers, ha, State.askOpen_answers, State.takeBuffer_answers, ht, State.askTimer_answers,
    State.takeTransport_answers, hm]
  simp [State.askAlloc, State.askOpen, State.askTimer, State.takeBuffer, State.takeTransport, State.closeTransport,
    State.freeBuffer, State.loseBuffer, State.emit]

/-- All answer Ok: the context comes to life (40_init.md R133, R135). -/
theorem acquire_succeeds {cfg : Cfg} {s : State} (ha : s.answers.alloc = .ok) (ht : s.answers.transport = .ok)
    (hm : s.answers.timer = .ok) :
    acquire cfg s =
      .next { s with
        ctxValid := true
        sched := .idle
        tickPending := false
        cfg := cfg
        txbuf := s.txbuf.zeroFill (bufLen cfg)
        held := Held.all
        outputs := s.outputs ++ [.allocReq (BitVec.ofNat 14 (bufLen cfg)), .openReq (busCfgOf cfg),
          .timerStart (periodUs cfg.freqCode), .response .ok] } := by
  unfold acquire
  simp only [State.askAlloc_answers, ha, State.askOpen_answers, State.takeBuffer_answers, ht, State.askTimer_answers,
    State.takeTransport_answers, hm]
  simp [State.askAlloc, State.askOpen, State.askTimer, State.takeBuffer, State.takeTransport, State.takeTimer,
    State.commit, State.emit, Held.all]

/-- The four ways acquisition can end. -/
theorem acquire_cases (s : State) :
    s.answers.alloc = .outOfMemory ∨ (s.answers.alloc = .ok ∧ ∃ e, s.answers.transport = .error e) ∨
      (s.answers.alloc = .ok ∧ s.answers.transport = .ok ∧ s.answers.timer = .fail) ∨
        (s.answers.alloc = .ok ∧ s.answers.transport = .ok ∧ s.answers.timer = .ok) := by
  cases s.answers.alloc <;> cases s.answers.transport <;> cases s.answers.timer <;> simp

/-! ### SET_PIXEL -/

/-- SET_PIXEL turned away: nothing changes (41_set_pixel.md R153, R154). -/
theorem execSetPixel_rejected {index : BitVec 32} {desc : Desc} {s : State} {st : Status}
    (h : pixelCheck index s = some st) :
    execSetPixel index desc s = .next { s with outputs := [.response st] } := by
  unfold execSetPixel; rw [h]; rfl

/-- SET_PIXEL with a live context and a good index (41_set_pixel.md R150, R152). -/
theorem execSetPixel_stores {index : BitVec 32} {desc : Desc} {s : State} (h : pixelCheck index s = none)
    (hc : pixelOffset index + 8 ≤ Config.bufCapacity) :
    execSetPixel index desc s =
      .next ((s.begin.store (pixelOffset index) (encodeFrame desc)).emit (.response .ok)) := by
  unfold execSetPixel storeFrame; rw [h]
  simp only [encodeFrame_length, if_pos hc, returnOk_eq]

/-- SET_PIXEL answers a next state only so. -/
theorem execSetPixel_next {index : BitVec 32} {desc : Desc} {s t : State} (h : execSetPixel index desc s = .next t) :
    (∃ st, pixelCheck index s = some st ∧ t = { s with outputs := [.response st] }) ∨
      (pixelCheck index s = none ∧ pixelOffset index + 8 ≤ Config.bufCapacity ∧
        t = (s.begin.store (pixelOffset index) (encodeFrame desc)).emit (.response .ok)) := by
  cases hp : pixelCheck index s with
  | some st => rw [execSetPixel_rejected hp] at h; cases h; exact .inl ⟨st, rfl, rfl⟩
  | none =>
    by_cases hc : pixelOffset index + 8 ≤ Config.bufCapacity
    · rw [execSetPixel_stores hp hc] at h; cases h; exact .inr ⟨rfl, hc, rfl⟩
    · unfold execSetPixel storeFrame at h; rw [hp] at h
      simp [hc] at h

/-! ### Submit and the events -/

theorem submit_eq {s : State} (h : bufLen s.cfg ≤ Config.bufCapacity) :
    submit s =
      .next { s with
        sched := .transmitting
        payload := s.txbuf.upTo (bufLen s.cfg)
        outputs := s.outputs ++ [.txSubmit (BitVec.ofNat 14 (bufLen s.cfg))] } := by
  unfold submit; rw [if_pos h]; rfl

theorem submit_next {s t : State} (h : submit s = .next t) :
    bufLen s.cfg ≤ Config.bufCapacity ∧
      t = { s with
        sched := .transmitting
        payload := s.txbuf.upTo (bufLen s.cfg)
        outputs := s.outputs ++ [.txSubmit (BitVec.ofNat 14 (bufLen s.cfg))] } := by
  by_cases hc : bufLen s.cfg ≤ Config.bufCapacity
  · rw [submit_eq hc] at h; cases h; exact ⟨hc, rfl⟩
  · unfold submit at h; simp [hc] at h

/-- An event with no context has no effect (42_scheduler.md R174, R176, R179). -/
theorem execTick_noContext {s : State} (h : s.ctxValid = false) : execTick s = .next s.begin := by
  simp [execTick, h]

theorem execTick_idle {s : State} (h : s.ctxValid = true) (hs : s.sched = .idle) : execTick s = submit s.begin := by
  simp [execTick, h, hs]

theorem execTick_busy {s : State} (h : s.ctxValid = true) (hs : s.sched ≠ .idle) :
    execTick s = .next { s.begin with tickPending := true } := by
  cases hc : s.sched <;> simp_all [execTick]

theorem execTxDone_transmitting {s : State} (e : BitVec 1) (h : s.ctxValid = true) (hs : s.sched = .transmitting) :
    execTxDone e s = .next { s with sched := .callback, outputs := [.cbReq] } := by
  simp [execTxDone, h, hs, State.emit, State.begin]

theorem execTxDone_ignored {s : State} (e : BitVec 1) (h : s.ctxValid = false ∨ s.sched ≠ .transmitting) :
    execTxDone e s = .next s.begin := by
  cases hv : s.ctxValid <;> cases hc : s.sched <;> simp_all [execTxDone]

theorem execCbRet_idle {s : State} (h : s.ctxValid = true) (hs : s.sched = .callback) (hp : s.tickPending = false) :
    execCbRet s = .next { s with sched := .idle, outputs := [] } := by
  simp [execCbRet, h, hs, hp, State.begin]

theorem execCbRet_pending {s : State} (h : s.ctxValid = true) (hs : s.sched = .callback) (hp : s.tickPending = true) :
    execCbRet s = submit { s.begin with tickPending := false } := by
  simp [execCbRet, h, hs, hp]

theorem execCbRet_ignored {s : State} (h : s.ctxValid = false ∨ s.sched ≠ .callback) :
    execCbRet s = .next s.begin := by
  cases hv : s.ctxValid <;> cases hc : s.sched <;> simp_all [execCbRet]

theorem execRst_eq (s : State) :
    execRst s =
      .next { s with
        ctxValid := false
        sched := .idle
        tickPending := false
        cfg := Cfg.zero
        txbuf := Memory.unspecified
        held := Held.none
        payload := []
        outputs := [] } := rfl

/-! ### What each instruction can answer, said once over `exec` -/

theorem exec_init (b d c : BitVec 8) (cb : BitVec 1) (fc : BitVec 4) (len : BitVec 16) (clk : BitVec 32) (s : State) :
    exec (.init b d c cb fc len clk) s = execInit b d c cb fc len clk s := rfl

theorem exec_setPixel (index : BitVec 32) (desc : Desc) (s : State) :
    exec (.setPixel index desc) s = execSetPixel index desc s := rfl

theorem exec_tick (s : State) : exec .tick s = execTick s := rfl

theorem exec_txDone (e : BitVec 1) (s : State) : exec (.txDone e) s = execTxDone e s := rfl

theorem exec_cbRet (s : State) : exec .cbRet s = execCbRet s := rfl

theorem exec_rst (s : State) : exec .rst s = execRst s := rfl

/-- INIT always completes: turned away, or acquiring. -/
theorem exec_init_completes (b d c : BitVec 8) (cb : BitVec 1) (fc : BitVec 4) (len : BitVec 16) (clk : BitVec 32)
    (s : State) :
    ∃ t, exec (.init b d c cb fc len clk) s = .next t ∧
      ((∃ st, initCheck cb fc len clk s = some st ∧ t = { s with outputs := [.response st] }) ∨
        (initCheck cb fc len clk s = none ∧ acquire (cfgOf b d c cb fc len clk) s.begin = .next t)) := by
  cases h : initCheck cb fc len clk s with
  | some st => exact ⟨_, execInit_rejected h, .inl ⟨st, rfl, rfl⟩⟩
  | none =>
    have he : exec (.init b d c cb fc len clk) s = acquire (cfgOf b d c cb fc len clk) s.begin := execInit_accepted h
    rw [he]
    rcases acquire_cases s.begin with h | ⟨h, e, h2⟩ | ⟨h, h2, h3⟩ | ⟨h, h2, h3⟩
    · exact ⟨_, acquire_allocFails h, .inr ⟨rfl, acquire_allocFails h⟩⟩
    · exact ⟨_, acquire_openFails h h2, .inr ⟨rfl, acquire_openFails h h2⟩⟩
    · exact ⟨_, acquire_timerFails h h2 h3, .inr ⟨rfl, acquire_timerFails h h2 h3⟩⟩
    · exact ⟨_, acquire_succeeds h h2 h3, .inr ⟨rfl, acquire_succeeds h h2 h3⟩⟩

theorem exec_init_next {b d c : BitVec 8} {cb : BitVec 1} {fc : BitVec 4} {len : BitVec 16} {clk : BitVec 32}
    {s t : State} (h : exec (.init b d c cb fc len clk) s = .next t) :
    (∃ st, initCheck cb fc len clk s = some st ∧ t = { s with outputs := [.response st] }) ∨
      (initCheck cb fc len clk s = none ∧ acquire (cfgOf b d c cb fc len clk) s.begin = .next t) := by
  obtain ⟨t', h1, h2⟩ := exec_init_completes b d c cb fc len clk s
  rw [h] at h1; cases h1; exact h2

theorem exec_tick_next {s t : State} (h : exec .tick s = .next t) :
    (s.ctxValid = false ∧ t = { s with outputs := [] }) ∨
      (s.ctxValid = true ∧ s.sched = .idle ∧ bufLen s.cfg ≤ Config.bufCapacity ∧
        t = { s with
          sched := .transmitting
          payload := s.txbuf.upTo (bufLen s.cfg)
          outputs := [.txSubmit (BitVec.ofNat 14 (bufLen s.cfg))] }) ∨
        (s.ctxValid = true ∧ s.sched ≠ .idle ∧ t = { s with tickPending := true, outputs := [] }) := by
  change execTick s = _ at h
  by_cases hv : s.ctxValid = true
  · by_cases hs : s.sched = .idle
    · rw [execTick_idle hv hs] at h
      obtain ⟨a, b⟩ := submit_next h
      exact .inr (.inl ⟨hv, hs, a, b⟩)
    · rw [execTick_busy hv hs] at h; cases h; exact .inr (.inr ⟨hv, hs, rfl⟩)
  · have hv : s.ctxValid = false := by simpa using hv
    rw [execTick_noContext hv] at h; cases h; exact .inl ⟨hv, rfl⟩

theorem exec_txDone_next {e : BitVec 1} {s t : State} (h : exec (.txDone e) s = .next t) :
    ((s.ctxValid = false ∨ s.sched ≠ .transmitting) ∧ t = { s with outputs := [] }) ∨
      (s.ctxValid = true ∧ s.sched = .transmitting ∧ t = { s with sched := .callback, outputs := [.cbReq] }) := by
  change execTxDone e s = _ at h
  by_cases hv : s.ctxValid = true ∧ s.sched = .transmitting
  · rw [execTxDone_transmitting e hv.1 hv.2] at h; cases h; exact .inr ⟨hv.1, hv.2, rfl⟩
  · have hv : s.ctxValid = false ∨ s.sched ≠ .transmitting := by
      by_cases h1 : s.ctxValid = true
      · exact .inr fun h2 => hv ⟨h1, h2⟩
      · exact .inl (by simpa using h1)
    rw [execTxDone_ignored e hv] at h; cases h; exact .inl ⟨hv, rfl⟩

theorem exec_cbRet_next {s t : State} (h : exec .cbRet s = .next t) :
    ((s.ctxValid = false ∨ s.sched ≠ .callback) ∧ t = { s with outputs := [] }) ∨
      (s.ctxValid = true ∧ s.sched = .callback ∧ s.tickPending = false ∧
        t = { s with sched := .idle, outputs := [] }) ∨
        (s.ctxValid = true ∧ s.sched = .callback ∧ s.tickPending = true ∧ bufLen s.cfg ≤ Config.bufCapacity ∧
          t = { s with
            tickPending := false
            sched := .transmitting
            payload := s.txbuf.upTo (bufLen s.cfg)
            outputs := [.txSubmit (BitVec.ofNat 14 (bufLen s.cfg))] }) := by
  change execCbRet s = _ at h
  by_cases hv : s.ctxValid = true ∧ s.sched = .callback
  · cases hp : s.tickPending
    · rw [execCbRet_idle hv.1 hv.2 hp] at h; cases h; exact .inr (.inl ⟨hv.1, hv.2, rfl, by rw [hp]⟩)
    · rw [execCbRet_pending hv.1 hv.2 hp] at h
      obtain ⟨a, b⟩ := submit_next h
      exact .inr (.inr ⟨hv.1, hv.2, rfl, a, b⟩)
  · have hv : s.ctxValid = false ∨ s.sched ≠ .callback := by
      by_cases h1 : s.ctxValid = true
      · exact .inr fun h2 => hv ⟨h1, h2⟩
      · exact .inl (by simpa using h1)
    rw [execCbRet_ignored hv] at h; cases h; exact .inl ⟨hv, rfl⟩

/-- With a live context INIT changes nothing but the response. -/
theorem exec_init_live {b d c : BitVec 8} {cb : BitVec 1} {fc : BitVec 4} {len : BitVec 16} {clk : BitVec 32}
    {s t : State} (hv : s.ctxValid = true) (h : exec (.init b d c cb fc len clk) s = .next t) :
    ∃ st, t = { s with outputs := [.response st] } := by
  rcases exec_init_next h with ⟨st, _, rfl⟩ | ⟨h1, _⟩
  · exact ⟨st, rfl⟩
  · have := (initCheck_eq_none.1 h1).2.2; rw [hv] at this; cases this

/-! ### Runs over a list of operations -/

@[simp] theorem execAll_nil (s : State) : execAll [] s = .next s := rfl

theorem execAll_cons {i : Instr} {s t : State} (is : List Instr) (h : exec i s = .next t) :
    execAll (i :: is) s = execAll is t := by
  rw [execAll, h]

theorem execAll_cons_next {i : Instr} {is : List Instr} {s u : State} (h : execAll (i :: is) s = .next u) :
    ∃ t, exec i s = .next t ∧ execAll is t = .next u := by
  unfold execAll at h
  split at h
  · next t he => exact ⟨t, he, h⟩
  · cases h
  · cases h

theorem execAll_append_next {is js : List Instr} {s u : State} (h : execAll (is ++ js) s = .next u) :
    ∃ t, execAll is s = .next t ∧ execAll js t = .next u := by
  induction is generalizing s with
  | nil => exact ⟨s, rfl, h⟩
  | cons i is ih =>
    obtain ⟨r, hr, h'⟩ := execAll_cons_next h
    obtain ⟨t, ht, hu⟩ := ih h'
    exact ⟨t, (execAll_cons is hr).trans ht, hu⟩

/-! ### Fetch -/

@[simp] theorem Moment.take_quiet (answers : Answers) : (Moment.quiet answers).take = none := by
  simp [Moment.take, Moment.quiet]

/-- What a moment's answers are does not change as its arrivals are taken. -/
theorem Moment.take_answers {m m' : Moment} {a : Arrival} (h : m.take = some (a, m')) : m'.answers = m.answers := by
  unfold Moment.take at h
  split at h
  · cases h; rfl
  split at h
  · cases h; rfl
  split at h
  · cases h; rfl
  split at h
  · cases h; rfl
  split at h
  · cases h; rfl
  · cases h

/-- The step says what it does with the arrival fetch gives. -/
theorem step_fetched {s : State} {a : Arrival} {answers : Answers} {inbox : List Moment}
    (h : fetch s.inbox = some (a, answers, inbox)) :
    step s =
      match decode a with
      | .ok i => exec i (s.deliver answers inbox)
      | .error e => rejectArrival e (s.deliver answers inbox) := by
  change (match fetch s.inbox with
    | none => _
    | some (a, answers, inbox) =>
      match decode a with
      | .ok i => exec i (s.deliver answers inbox)
      | .error e => rejectArrival e (s.deliver answers inbox)) = _
  rw [h]

/-- A run of a machine, one step on. -/
theorem run_succ (M : Host.Core) {k : Nat} {s t : M.State} (h : M.step s = .next t) : M.run (k + 1) s = M.run k t := by
  rw [Host.Core.run, h]

theorem core_run_succ {k : Nat} {s t : State} (h : step s = .next t) :
    Host.Core.run Sys2Proof.core (k + 1) s = Host.Core.run Sys2Proof.core k t :=
  run_succ Sys2Proof.core h

theorem step_waits {s : State} (h : fetch s.inbox = none) : step s = .next s.wait := by
  unfold step; rw [h]

end Sys2Proof.Machine
end

