-- ==== Sys2Proof/Laws/PerInstr.lean ====
section
/-! SUPPORT. The statement families made instruction by instruction (LAWS.json). -/

namespace Sys2Proof.Laws.FixedBits

/-- What a well-formed instruction puts on the input ports has the fixed bits of its row of the operation table: the
opcode and the zero reserved fields of a command (30_encoding.md R96, R100), a frequency code of the set, the strobe
bit of an event (R104). -/
def Statement (i : Instr) : Prop :=
  WellFormed i = true →
    match encode i with
    | .cmd w =>
      (w.extractLsb' 120 8 = 0x01#8 ∧ w.extractLsb' 89 7 = 0#7 ∧ w.extractLsb' 84 4 = 0#4 ∧
          w.extractLsb' 0 32 = 0#32 ∧ legalFreqCode (w.extractLsb' 80 4) = true) ∨
        (w.extractLsb' 120 8 = 0x02#8 ∧ w.extractLsb' 96 24 = 0#24)
    | .tick b => b = 1#1
    | .txDone b => b[1] = true
    | .cbDone b => b = 1#1
    | .rst b => b = 1#1

theorem init (busId dataPin clockPin : BitVec 8) (cbPresent : BitVec 1) (freqCode : BitVec 4) (stripLength : BitVec 16)
    (clockSpeedHz : BitVec 32) :
    Statement (.init busId dataPin clockPin cbPresent freqCode stripLength clockSpeedHz) := fun h =>
  .inl ⟨encodeInit_opcode .., encodeInit_reservedA .., encodeInit_reservedB .., encodeInit_reservedC .., by
    rw [encodeInit_freqCode]; exact h⟩

theorem setPixel (index : BitVec 32) (desc : Desc) : Statement (.setPixel index desc) := fun _ =>
  .inr ⟨encodeSetPixel_opcode .., encodeSetPixel_reserved ..⟩

theorem tick : Statement .tick := fun _ => rfl

theorem txDone (txErr : BitVec 1) : Statement (.txDone txErr) := fun _ => by
  have h : ∀ e : BitVec 1, (1#1 ++ e : BitVec 2)[1] = true := by decide
  exact h txErr

theorem cbRet : Statement .cbRet := fun _ => rfl

theorem rst : Statement .rst := fun _ => rfl

end Sys2Proof.Laws.FixedBits
end

