-- ==== Sys2Proof/Tests/Slice0.lean ====
section
/-! SUPPORT. Tests with expected results from 95_test_vectors.md, and for every obligation with hypotheses a witness that
meets them together, each clause at a boundary value. -/

namespace Sys2Proof.Tests

open Sys2Proof Sys2Proof.Machine

/-! ### Helpers -/

/-- The INIT of vector I1: length 1, 30 Hz, 20 MHz. -/
abbrev i1 : Instr := .init 0 0 0 1 7 1 20000000

/-- The SET_PIXEL of vector P-1 with another index: the descriptor of E4. -/
abbrev e4 (index : BitVec 32) : Instr := .setPixel index 0x0443123456789ABC

/-- The state after some operations. -/
abbrev after (ops : List Instr) (s : State) : State := (nextOf (execAll ops s)).getD s

/-- Start of program P2: after RST and I1. -/
abbrev live : State := after [i1] State.reset

/-- A transfer is in flight. -/
abbrev sending : State := after [.tick] live

/-- The callback runs. -/
abbrev calling : State := after [.txDone 0] sending

/-- The callback runs and a tick is pending. -/
abbrev late : State := after [.tick] calling

/-- What the ports carried in the step of an operation. -/
abbrev outputsOf (i : Instr) (s : State) : Option (List Output) := (nextOf (exec i s)).map State.outputs

/-- The sequencer and the pending tick after an operation. -/
abbrev sequencerOf (i : Instr) (s : State) : Option (Sched × Bool) :=
  (nextOf (exec i s)).map fun t => (t.sched, t.tickPending)

theorem next_of_isSome {o : Host.Outcome State Fault Refusal} (d : State) (h : (nextOf o).isSome = true) :
    o = .next ((nextOf o).getD d) := by
  cases o with
  | next t => rfl
  | fault r => cases h
  | refused r => cases h

/-! ### WellFormed: the smoke test -/

/-- Codes 12 to 15 name no frequency (30_encoding.md R106). -/
theorem test_wellFormed_refuses_reserved_codes :
    ([12, 13, 14, 15] : List (BitVec 4)).map (fun fc => WellFormed (.init 0 0 0 1 fc 1 20000000)) =
      [false, false, false, false] := by decide

theorem test_wellFormed_takes_last_code : WellFormed (.init 0 0 0 1 11 1 20000000) = true := by decide

/-! ### Decoding words written out from the field tables -/

/-- Vector I1. -/
theorem test_decode_init : decode (.cmd 0x010000000107000101312D0000000000#128) = .ok i1 := by rfl

/-- Program P1, step 1: every operand field holds another value. -/
theorem test_decode_init_fields :
    decode (.cmd 0x01021712010900020098968000000000#128) = .ok (.init 2 23 18 1 9 2 10000000) := by rfl

/-- Vector P-2. -/
theorem test_decode_setPixel : decode (.cmd 0x02000000000000010443123456789ABC#128) = .ok (e4 1) := by rfl

theorem test_decode_tick : decode (.tick 1#1) = .ok .tick := by rfl

/-- `tx_done` is bit 1 and `tx_err` bit 0 of the row's two bits (30_encoding.md R104). -/
theorem test_decode_txDone :
    decode (.txDone 0b10#2) = .ok (.txDone 0) ∧ decode (.txDone 0b11#2) = .ok (.txDone 1) := ⟨rfl, rfl⟩

theorem test_decode_cbRet : decode (.cbDone 1#1) = .ok .cbRet := by rfl

theorem test_decode_rst : decode (.rst 1#1) = .ok .rst := by rfl

/-- Vector I1 as 16 bytes, `cmd[127:120]` first (30_encoding.md R102). -/
theorem test_decode_bytes :
    decodeBytes [0x01, 0, 0, 0, 0x01, 0x07, 0, 0x01, 0x01, 0x31, 0x2D, 0, 0, 0, 0, 0] = .ok i1 := by rfl

/-- Vectors I20, I21, I22, P-8, and a strobe that is down: rejected by name. -/
theorem test_decode_rejects :
    decode (.cmd 0x01000000010C000101312D0000000000#128) = .error .reservedFreqCode ∧
      decode (.cmd 0x03000000000000000000000000000000#128) = .error .unknownOpcode ∧
      decode (.cmd 0x010000000107000101312D0000000001#128) = .error .reservedBits ∧
      decode (.cmd 0x02000001000000000000000000000000#128) = .error .reservedBits ∧
      decode (.tick 0#1) = .error .noStrobe ∧ decode (.txDone 0b01#2) = .error .noStrobe ∧
      decodeBytes [0x01, 0x02] = .error .wrongLength := ⟨rfl, rfl, rfl, rfl, rfl, rfl, rfl⟩

/-- Vectors P1 step 1 and P-2 the other way. -/
theorem test_encode :
    encode (.init 2 23 18 1 9 2 10000000) = .cmd 0x01021712010900020098968000000000#128 ∧
      encode (e4 1) = .cmd 0x02000000000000010443123456789ABC#128 := by decide

/-- Words of the operation table (log entry 9 for the one-bit word). -/
theorem test_decodeTableWord :
    decodeTableWord 128 0x010000000107000101312D0000000000 = some i1 ∧
      decodeTableWord 128 0x02000000000000010443123456789ABC = some (e4 1) ∧
      decodeTableWord 8 1 = some .tick ∧ decodeTableWord 8 2 = some (.txDone 0) ∧
      decodeTableWord 8 3 = some (.txDone 1) ∧ decodeTableWord 8 0 = none := by decide

/-- A table word is run by the very next step after reset. -/
theorem test_withFetchWord :
    (nextOf (step (State.reset.withFetchWord 128 0x010000000107000101312D0000000000))).map State.ctxValid = some true := by
  decide

/-! ### Operand forms and checks -/

/-- Vectors E1 to E13, column `bytes`. -/
theorem test_encodeFrame_lanes :
    encodeFrame 0x7FFFFFFF00000000 = [0xFF, 0xFF, 0xFF, 0xFF, 0, 0, 0, 0] ∧
      encodeFrame 0x8000000000000000 = [0x80, 0, 0, 0, 0, 0, 0, 0] ∧
      encodeFrame 0x0443123456789ABC = [0x84, 0x43, 0x12, 0x34, 0x56, 0x78, 0x9A, 0xBC] ∧
      encodeFrame 0x4104000101008000 = [0xC1, 0x04, 0x00, 0x01, 0x01, 0x00, 0x80, 0x00] ∧
      encodeFrame 0x2AA7DEADBEEFCAFE = [0xAA, 0xA7, 0xDE, 0xAD, 0xBE, 0xEF, 0xCA, 0xFE] ∧
      encodeFrame 0x040000FFFF000F0F = [0x84, 0x00, 0x00, 0xFF, 0xFF, 0x00, 0x0F, 0x0F] := by decide

/-- Vectors E5, E6, E7 and E9, columns of fields and `word0`: one current level each, then all fields. -/
theorem test_pixel_fields :
    ([0x7C00000000000000, 0x03E0000000000000, 0x001F000000000000] : List Desc).map (fun d => word0 (pixelOf d)) =
        [0xFC00, 0x83E0, 0x801F] ∧
      pixelOf 0x2AA7DEADBEEFCAFE = { clRed := 10, clGreen := 21, clBlue := 7, red := 0xDEAD, green := 0xBEEF, blue := 0xCAFE }
      := by decide

/-- Example S6: the decoded frame gives the fields back. -/
theorem test_decodeFrame :
    decodeFrame [0xFF, 0xFF, 0xFF, 0xFF, 0, 0, 0, 0] =
      some { clRed := 31, clGreen := 31, clBlue := 31, red := 0xFFFF, green := 0, blue := 0 } := by decide

/-- Vectors I2 to I19 at the bounds of the four checks. -/
theorem test_validate :
    validate 1 7 0 20000000 = some .lengthOutOfRange ∧ validate 1 7 1025 20000000 = some .lengthOutOfRange ∧
      validate 1 11 1024 40000000 = none ∧ validate 1 7 1 40000001 = some .invalidParameter ∧
      validate 0 7 1 20000000 = some .invalidParameter ∧ validate 0 7 0 50000000 = some .lengthOutOfRange ∧
      validate 1 0 1 384 = none ∧ validate 1 0 1 383 = some .insufficientDataRate ∧
      validate 1 11 1024 15759360 = none ∧ validate 1 11 1024 15759359 = some .insufficientDataRate := by decide

/-! ### Memory -/

/-- A write keeps offsets rising and replaces in place. -/
theorem test_memory_write :
    Memory.write 5 0xAA [(4, 0x11), (6, 0x22)] = [(4, 0x11), (5, 0xAA), (6, 0x22)] ∧
      Memory.write 6 0xAA [(4, 0x11), (6, 0x22)] = [(4, 0x11), (6, 0xAA)] := by decide

/-- `MemRead` takes the lowest offset as the most significant byte (00_scope.md R10); a byte without a value gives no
number. -/
theorem test_memory_readWord :
    Memory.readWord 4 2 [(4, 0x12), (5, 0x34)] = some 0x1234 ∧ Memory.readWord 4 3 [(4, 0x12), (5, 0x34)] = none := by
  decide

/-! ### One step each -/

/-- Vector I30. -/
theorem test_init_outputs :
    outputsOf i1 State.reset =
      some [.allocReq 24, .openReq { busId := 0, clockSpeedHz := 20000000, dataPin := 0, clockPin := 0 }, .timerStart 33333,
        .response .ok] := by decide

/-- Vector I37. -/
theorem test_init_rollback :
    outputsOf i1 { State.reset with answers := { Answers.allOk with timer := .fail } } =
      some [.allocReq 24, .openReq { busId := 0, clockSpeedHz := 20000000, dataPin := 0, clockPin := 0 }, .timerStart 33333,
        .closeReq, .allocFree, .response .unknownError] := by decide

/-- Vector P-1 on one pixel: status and the 8 bytes, most significant first. -/
theorem test_setPixel_stores :
    outputsOf (e4 0) live = some [.response .ok] ∧
      (after [e4 0] live).txbuf.readBytes 15 9 = some [0, 0x84, 0x43, 0x12, 0x34, 0x56, 0x78, 0x9A, 0xBC] := by decide

/-- Vector P-4: no wrap. -/
theorem test_setPixel_rejects : outputsOf (e4 0xFFFFFFFF) live = some [.response .indexOutOfRange] := by decide

/-- Vector T1. -/
theorem test_tick_idle :
    sequencerOf .tick live = some (.transmitting, false) ∧ outputsOf .tick live = some [.txSubmit 24] := by decide

/-- Vectors T2 and T5. -/
theorem test_tick_held :
    sequencerOf .tick sending = some (.transmitting, true) ∧ sequencerOf .tick late = some (.callback, true) := by decide

/-- Vectors T7 and T9. -/
theorem test_txDone :
    sequencerOf (.txDone 1) sending = some (.callback, false) ∧ outputsOf (.txDone 1) sending = some [.cbReq] ∧
      sequencerOf (.txDone 0) live = some (.idle, false) ∧ outputsOf (.txDone 0) live = some [] := by decide

/-- Vector T11. -/
theorem test_cbRet_idle : sequencerOf .cbRet calling = some (.idle, false) ∧ outputsOf .cbRet calling = some [] := by decide

/-- Vector T12. -/
theorem test_cbRet_pending :
    sequencerOf .cbRet late = some (.transmitting, false) ∧ outputsOf .cbRet late = some [.txSubmit 24] := by decide

/-- Vector Z1. -/
theorem test_rst : nextOf (exec .rst late) = some State.reset := by decide

/-! ### Witnesses: encodings and steps -/

theorem witness_DecodeOfEncodeIsInstruction :
    WellFormed (.init 0xFF 0xFF 0xFF 1 11 0xFFFF 0xFFFFFFFF) = true := by decide

theorem witness_EncodeOfDecodeIsArrival :
    decode (.cmd 0x02000000FFFFFFFFFFFFFFFFFFFFFFFF#128) = .ok (.setPixel 0xFFFFFFFF 0xFFFFFFFFFFFFFFFF) := by rfl

theorem witness_SerialisedCommandDecodes :
    (WellFormed i1 = true ∧ encode i1 = .cmd 0x010000000107000101312D0000000000#128 ∧
      encodeBytes i1 = some [0x01, 0, 0, 0, 0x01, 0x07, 0, 0x01, 0x01, 0x31, 0x2D, 0, 0, 0, 0, 0]) ∧
    ([0x01] : List Byte).length ≠ 16 := by decide

theorem witness_StepRunsDecodedInstruction :
    fetch [Moment.only Answers.allOk (.tick 1)] = some (.tick 1, Answers.allOk, []) ∧ decode (.tick 1) = .ok .tick :=
  ⟨by decide, rfl⟩

theorem witness_StepAnswersIllegalCommand :
    fetch [Moment.only Answers.allOk (.cmd 0)] = some (.cmd 0, Answers.allOk, []) ∧
      decodeCmd 0 = .error .unknownOpcode := ⟨by decide, rfl⟩

theorem witness_StepWaitsWhenNothingArrives :
    ∀ m ∈ ({ State.reset with inbox := [Moment.quiet Answers.allOk] } : State).inbox, m.take = none := by decide

/-- A moment at which everything but reset arrives. -/
abbrev crowded : Moment := { rst := 0, txDone := 0b10, cbDone := 1, tick := 1, cmd := some 0, answers := Answers.allOk }

/-- One moment for each clause. -/
theorem witness_EventsBeforeCommandInOrder :
    (crowded.rst = 0#1 ∧ crowded.txDone[1] = true) ∧
    (∀ m : Moment, m = { crowded with txDone := 0b01 } → m.rst = 0#1 ∧ m.txDone[1] = false ∧ m.cbDone = 1#1) ∧
    (∀ m : Moment, m = { crowded with txDone := 0, cbDone := 0 } →
      m.rst = 0#1 ∧ m.txDone[1] = false ∧ m.cbDone = 0#1 ∧ m.tick = 1#1) ∧
    (∀ m : Moment, m = { crowded with txDone := 0, cbDone := 0, tick := 0 } →
      m.rst = 0#1 ∧ m.txDone[1] = false ∧ m.cbDone = 0#1 ∧ m.tick = 0#1 ∧ m.cmd = some 0) ∧
    ((Moment.quiet Answers.allOk).rst = 0#1 ∧ (Moment.quiet Answers.allOk).txDone[1] = false ∧
      (Moment.quiet Answers.allOk).cbDone = 0#1 ∧ (Moment.quiet Answers.allOk).tick = 0#1 ∧
      (Moment.quiet Answers.allOk).cmd = none) := by
  refine ⟨by decide, ?_, ?_, ?_, by decide⟩ <;> rintro _ rfl <;> decide

theorem witness_TickWithCallbackReturnStartsTransfer :
    ∀ m : Moment, m = { crowded with txDone := 0 } → m.rst = 0#1 ∧ m.txDone[1] = false ∧ m.cbDone = 1#1 ∧ m.tick = 1#1 ∧
      ({ calling with inbox := [m] } : State).inbox = [m] ∧ calling.ctxValid = true ∧ calling.sched = .callback ∧
      calling.tickPending = false ∧ calling.cfg.stripLength.toNat ≤ 1024 := by
  rintro _ rfl; decide

/-! ### Witnesses: INIT -/

/-- Both ends of both clauses: 0, 1025 and 65535 fail; 1 and 1024 pass. -/
theorem witness_InitRejectsBadLength :
    legalFreqCode 7 = true ∧ ((0 : BitVec 16).toNat < 1 ∨ 1024 < (0 : BitVec 16).toNat) ∧
      ((1025 : BitVec 16).toNat < 1 ∨ 1024 < (1025 : BitVec 16).toNat) ∧
      (1 ≤ (1 : BitVec 16).toNat ∧ (1 : BitVec 16).toNat ≤ 1024) ∧
      (1 ≤ (1024 : BitVec 16).toNat ∧ (1024 : BitVec 16).toNat ≤ 1024) := by decide

/-- 40,000,001 fails; 40,000,000 passes; 0 falls under the second and the third clause, which agree. -/
theorem witness_InitRejectsClockAboveCeiling :
    legalFreqCode 7 = true ∧ 1 ≤ (1 : BitVec 16).toNat ∧ (1 : BitVec 16).toNat ≤ 1024 ∧
      40000000 < (40000001 : BitVec 32).toNat ∧ ((40000000 : BitVec 32).toNat ≤ 40000000 ∧ (1 : BitVec 1) = 1#1) ∧
      ((0 : BitVec 32) = 0#32 ∧ (1 : BitVec 1) = 1#1) := by decide

theorem witness_InitRejectsMissingCallback :
    legalFreqCode 11 = true ∧ 1 ≤ (1024 : BitVec 16).toNat ∧ (1024 : BitVec 16).toNat ≤ 1024 ∧
      (40000000 : BitVec 32).toNat ≤ 40000000 ∧ (0 : BitVec 1) = 0#1 := by decide

/-- Vectors I17 and I16: one below the required rate, and equal to it. -/
theorem witness_InitRejectsInsufficientRate :
    Config.freqSet[(11 : BitVec 4).toNat]? = some 120 ∧ 1 ≤ (1024 : BitVec 16).toNat ∧ (1024 : BitVec 16).toNat ≤ 1024 ∧
      ((15759359 : BitVec 32).toNat ≤ 40000000 ∧
        (15759359 : BitVec 32).toNat < (16 + (1024 : BitVec 16).toNat * 8) * 8 * 120 * 2) ∧
      ((15759360 : BitVec 32).toNat ≤ 40000000 ∧
        (16 + (1024 : BitVec 16).toNat * 8) * 8 * 120 * 2 ≤ (15759360 : BitVec 32).toNat) := by decide

theorem witness_RequiredRateBounds :
    legalFreqCode 11 = true ∧ 1 ≤ (1024 : BitVec 16).toNat ∧ (1024 : BitVec 16).toNat ≤ 1024 := by decide

/-- A failing check; and an INIT that asks. -/
theorem witness_InitValidatorIsPure :
    legalFreqCode 7 = true ∧ validate 1 7 0 20000000 = some .lengthOutOfRange ∧
      ∃ t, exec i1 State.reset = .next t ∧ ∃ o ∈ t.outputs, o.isRequest = true :=
  ⟨by decide, by decide, _, next_of_isSome State.reset (by decide), .allocReq 24, by decide, rfl⟩

theorem witness_InitOnLiveContextIsTurnedAway :
    legalFreqCode 7 = true ∧ validate 1 7 1 20000000 = none ∧ live.ctxValid = true := by decide

/-- Vector I16: the largest buffer at the smallest clock that passes. -/
theorem witness_InitBringsContextToLife :
    Config.freqSet[(11 : BitVec 4).toNat]? = some 120 ∧ 1 ≤ (1024 : BitVec 16).toNat ∧ (1024 : BitVec 16).toNat ≤ 1024 ∧
      (15759360 : BitVec 32).toNat ≤ 40000000 ∧
      (16 + (1024 : BitVec 16).toNat * 8) * 8 * 120 * 2 ≤ (15759360 : BitVec 32).toNat ∧ State.reset.ctxValid = false ∧
      State.reset.answers.alloc = .ok ∧ State.reset.answers.transport = .ok ∧ State.reset.answers.timer = .ok := by decide

/-- Both sides of the equivalence are met. -/
theorem witness_InitAnswersOkExactlyWhen :
    ∃ t, exec i1 State.reset = .next t ∧ .response .ok ∈ t.outputs :=
  ⟨_, next_of_isSome State.reset (by decide), by decide⟩

/-- The three failures, each with the collaborators before it answering Ok. -/
theorem witness_InitRollsBackInReverseOrder :
    legalFreqCode 7 = true ∧ validate 1 7 1 20000000 = none ∧ State.reset.ctxValid = false ∧
      State.reset.held = Held.none ∧
      (∀ w : Answers, w = { alloc := .outOfMemory, transport := .ok, timer := .ok } → w.alloc = .outOfMemory) ∧
      (∀ w : Answers, w = { alloc := .ok, transport := .error .noDmaChannel, timer := .ok } →
        w.alloc = .ok ∧ w.transport = .error .noDmaChannel) ∧
      (∀ w : Answers, w = { alloc := .ok, transport := .ok, timer := .fail } →
        w.alloc = .ok ∧ w.transport = .ok ∧ w.timer = .fail) := by
  refine ⟨by decide, by decide, by decide, by decide, ?_, ?_, ?_⟩ <;> rintro _ rfl <;> decide

/-- With a live context; without `Ok`; with `Ok`. -/
theorem witness_InitFrame :
    (∃ t, exec i1 live = .next t ∧ live.ctxValid = true ∧ .response .ok ∉ t.outputs) ∧
    ∃ t, exec i1 State.reset = .next t ∧ .response .ok ∈ t.outputs :=
  ⟨⟨_, next_of_isSome live (by decide), by decide, by decide⟩, ⟨_, next_of_isSome State.reset (by decide), by decide⟩⟩

/-! ### Witnesses: SET_PIXEL -/

theorem witness_SetPixelStoresFrame :
    live.ctxValid = true ∧ (0 : BitVec 32).toNat < live.cfg.stripLength.toNat ∧ live.cfg.stripLength.toNat ≤ 1024 ∧
      live.sched ≠ .transmitting := by decide

/-- Index 1 of a strip of 1 fails, so does the largest; index 0 passes. -/
theorem witness_SetPixelRejectsBadIndex :
    live.ctxValid = true ∧ live.cfg.stripLength.toNat ≤ 1024 ∧ live.cfg.stripLength.toNat ≤ (1 : BitVec 32).toNat ∧
      live.cfg.stripLength.toNat ≤ (0xFFFFFFFF : BitVec 32).toNat ∧
      (0 : BitVec 32).toNat < live.cfg.stripLength.toNat := by decide

theorem witness_SetPixelNeedsContext : State.reset.ctxValid = false := by decide

/-- A form that stores, and one that does not. -/
theorem witness_SetPixelFrame :
    (∃ t, exec (e4 0) live = .next t ∧ storeOffset 0 live = some 16) ∧
    ∃ t, exec (e4 1) live = .next t ∧ storeOffset 1 live = none :=
  ⟨⟨_, next_of_isSome live (by decide), by decide⟩, ⟨_, next_of_isSome live (by decide), by decide⟩⟩

/-- Descriptors that differ only in bit 63. -/
theorem witness_StartBitIsForced :
    ∀ i, i < 63 → (0x8000000000000000 : Desc).getLsbD i = (0 : Desc).getLsbD i := by decide

/-- The context of program P1: two pixels. -/
abbrev two : State := after [.init 2 23 18 1 9 2 10000000] State.reset

/-- The three clauses, on two pixels. -/
theorem witness_SetPixelOverwrites :
    (∃ t u, exec (.setPixel 0 5) two = .next t ∧ exec (.setPixel 0 5) t = .next u) ∧
    (∃ t u v, exec (.setPixel 0 5) two = .next t ∧ exec (.setPixel 0 6) t = .next u ∧
      exec (.setPixel 0 6) two = .next v) ∧
    ∃ t u v w, (0 : BitVec 32) ≠ 1 ∧ exec (.setPixel 0 5) two = .next t ∧ exec (.setPixel 1 6) t = .next u ∧
      exec (.setPixel 1 6) two = .next v ∧ exec (.setPixel 0 5) v = .next w :=
  ⟨⟨_, _, next_of_isSome two (by decide), next_of_isSome two (by decide)⟩,
    ⟨_, _, _, next_of_isSome two (by decide), next_of_isSome two (by decide), next_of_isSome two (by decide)⟩,
    ⟨_, _, _, _, by decide, next_of_isSome two (by decide), next_of_isSome two (by decide), next_of_isSome two (by decide),
      next_of_isSome two (by decide)⟩⟩

/-- With a payload byte that has a value. -/
theorem witness_SetPixelRacesTransferInFlight :
    sending.ctxValid = true ∧ sending.sched = .transmitting ∧ (0 : BitVec 32).toNat < sending.cfg.stripLength.toNat ∧
      sending.cfg.stripLength.toNat ≤ 1024 ∧ sending.payload.read (16 + 8 * (0 : BitVec 32).toNat + 7) = some 0 := by decide

theorem witness_SetPixelIsBlindToScheduler :
    sending.ctxValid = live.ctxValid ∧ sending.cfg = live.cfg ∧ sending.txbuf = live.txbuf ∧
      ∃ t, exec (e4 0) live = .next t :=
  ⟨by decide, by decide, by decide, _, next_of_isSome live (by decide)⟩

/-! ### Witnesses: the scheduler -/

theorem witness_TickInIdleSubmitsWholeBuffer :
    live.ctxValid = true ∧ live.sched = .idle ∧ live.cfg.stripLength.toNat ≤ 1024 := by decide

theorem witness_TickOutsideIdleIsHeld :
    (sending.ctxValid = true ∧ sending.sched ≠ .idle) ∧ calling.ctxValid = true ∧ calling.sched ≠ .idle := by decide

theorem witness_TxDoneInvokesCallback : sending.ctxValid = true ∧ sending.sched = .transmitting := by decide

theorem witness_CallbackReturnGoesToIdle :
    calling.ctxValid = true ∧ calling.sched = .callback ∧ calling.tickPending = false := by decide

theorem witness_CallbackReturnServesPendingTick :
    late.ctxValid = true ∧ late.sched = .callback ∧ late.tickPending = true ∧ late.cfg.stripLength.toNat ≤ 1024 := by decide

/-- Each clause without a context, and with one in another state. -/
theorem witness_UnexpectedEventsAreIgnored :
    State.reset.ctxValid = false ∧ live.sched ≠ .transmitting ∧ calling.sched ≠ .transmitting ∧ live.sched ≠ .callback ∧
      sending.sched ≠ .callback := by decide

/-- The three events; the tick submits. -/
theorem witness_EventFrame :
    (∃ t, exec .tick live = .next t ∧ .txSubmit (BitVec.ofNat 14 (bufLen live.cfg)) ∈ t.outputs) ∧
    (∃ t, exec (.txDone 1) sending = .next t) ∧ ∃ t, exec .cbRet calling = .next t :=
  ⟨⟨_, next_of_isSome live (by decide), by decide⟩, ⟨_, next_of_isSome live (by decide)⟩,
    ⟨_, next_of_isSome live (by decide)⟩⟩

/-- Every operation but TX_DONE and RST, in a transfer. -/
theorem witness_TransmittingWaitsForTxDone :
    (∀ i ∈ ([i1, e4 0, .tick, .cbRet] : List Instr), leavesTransmitting i = false) ∧ sending.ctxValid = true ∧
      sending.sched = .transmitting ∧ ∃ t, execAll [i1, e4 0, .tick, .cbRet] sending = .next t :=
  ⟨by decide, by decide, by decide, _, next_of_isSome sending (by decide)⟩

theorem live_invariant : Invariant live := ⟨by decide, by decide, by decide⟩

/-- A transfer in which an INIT and a SET_PIXEL are turned away and a tick is held. -/
theorem witness_PayloadIsBufferAtTick :
    Invariant live ∧ live.ctxValid = true ∧ live.sched = .idle ∧ ∃ t u v, exec .tick live = .next t ∧
      (∀ i ∈ ([i1, e4 1, .tick] : List Instr), leavesTransmitting i = false ∧
        ∀ index desc, i = .setPixel index desc → live.cfg.stripLength.toNat ≤ index.toNat) ∧
      execAll [i1, e4 1, .tick] t = .next u ∧ exec (.txDone 1) u = .next v := by
  refine ⟨live_invariant, by decide, by decide, _, _, _, next_of_isSome live (by decide), ?_,
    next_of_isSome live (by decide), next_of_isSome live (by decide)⟩
  intro i hi
  simp only [List.mem_cons, List.not_mem_nil, or_false] at hi
  rcases hi with rfl | rfl | rfl
  · exact ⟨rfl, nofun⟩
  · refine ⟨rfl, fun index desc h => ?_⟩
    cases h; decide
  · exact ⟨rfl, nofun⟩

/-- INIT and a SET_PIXEL out of range are turned away, a tick is held, a CB_RET is ignored. -/
theorem witness_PayloadStaysUntilStored :
    (∀ i ∈ ([i1, e4 1, .tick, .cbRet] : List Instr), leavesTransmitting i = false ∧ (nextOf (exec i sending)).isSome = true) ∧
      sending.cfg.stripLength.toNat ≤ (1 : BitVec 32).toNat ∧ sending.ctxValid = true ∧ sending.sched = .transmitting ∧
      ∃ t, exec (e4 1) sending = .next t ∧
        ∀ index desc, e4 1 = .setPixel index desc → sending.cfg.stripLength.toNat ≤ index.toNat := by
  refine ⟨by decide, by decide, by decide, by decide, _, next_of_isSome live (by decide), fun index desc h => ?_⟩
  cases h; decide

/-- A pending tick served at CB_RET, and a transfer in which a SET_PIXEL is turned away and a tick is held. -/
theorem witness_PayloadIsBufferAtPendingTick :
    Invariant late ∧ late.ctxValid = true ∧ late.sched = .callback ∧ late.tickPending = true ∧
      ∃ t u v, exec .cbRet late = .next t ∧
        (∀ i ∈ ([e4 1, .tick] : List Instr), leavesTransmitting i = false ∧
          ∀ index desc, i = .setPixel index desc → late.cfg.stripLength.toNat ≤ index.toNat) ∧
        execAll [e4 1, .tick] t = .next u ∧ exec (.txDone 1) u = .next v := by
  refine ⟨⟨by decide, by decide, by decide⟩, by decide, by decide, by decide, _, _, _, next_of_isSome live (by decide), ?_,
    next_of_isSome live (by decide), next_of_isSome live (by decide)⟩
  intro i hi
  simp only [List.mem_cons, List.not_mem_nil, or_false] at hi
  rcases hi with rfl | rfl
  · refine ⟨rfl, fun index desc h => ?_⟩
    cases h; decide
  · exact ⟨rfl, nofun⟩

theorem witness_SubmittedPayloadIsFramed :
    Invariant live ∧ ∃ t, exec .tick live = .next t ∧ .txSubmit 24 ∈ t.outputs :=
  ⟨live_invariant, _, next_of_isSome live (by decide), by decide⟩

/-- The callback of program P1's context. -/
abbrev two_calling : State := after [.tick, .txDone 0] two

/-- Both clauses: no tick pending, and one pending. -/
theorem witness_CallbackPixelsReachNextTransfer :
    (two_calling.ctxValid = true ∧ two_calling.sched = .callback ∧ (0 : BitVec 32).toNat < two_calling.cfg.stripLength.toNat ∧
      two_calling.cfg.stripLength.toNat ≤ 1024 ∧ two_calling.tickPending = false) ∧
    (after [.tick] two_calling).tickPending = true ∧ (after [.tick] two_calling).sched = .callback ∧
    (∀ i ∈ [e4 1], ∃ j d, i = .setPixel j d ∧ j ≠ 0) ∧
    (∃ t, execAll ([e4 0] ++ [e4 1] ++ [.cbRet]) two_calling = .next t) ∧
    ∃ t, execAll ([e4 0] ++ [e4 1] ++ [.cbRet]) (after [.tick] two_calling) = .next t := by
  refine ⟨by decide, by decide, by decide, ?_, ⟨_, next_of_isSome two (by decide)⟩, ⟨_, next_of_isSome two (by decide)⟩⟩
  intro i hi
  rw [List.mem_singleton] at hi
  exact ⟨1, _, hi, by decide⟩

theorem witness_OverrunTicksCoalesce :
    calling.ctxValid = true ∧ calling.sched = .callback ∧ calling.cfg.stripLength.toNat ≤ 1024 := by decide

/-! ### Witnesses: the whole machine -/

theorem witness_ContextEndsOnlyByReset :
    live.ctxValid = true ∧ (Instr.tick) ≠ .rst ∧ ∃ t, exec .tick live = .next t :=
  ⟨by decide, by decide, _, next_of_isSome live (by decide)⟩

theorem witness_PreambleIsNeverWritten :
    live.ctxValid = true ∧ e4 0 ≠ .rst ∧ ∃ t, exec (e4 0) live = .next t :=
  ⟨by decide, by decide, _, next_of_isSome live (by decide)⟩

theorem witness_CommandsRespondOnceEventsNever :
    (∃ t, exec i1 State.reset = .next t) ∧ ∃ t, exec .tick live = .next t :=
  ⟨⟨_, next_of_isSome live (by decide)⟩, ⟨_, next_of_isSome live (by decide)⟩⟩

theorem witness_TimerIsStartedByInitAndNeverStopped :
    ∃ t, exec i1 State.reset = .next t ∧ .timerStart 33333 ∈ t.outputs :=
  ⟨_, next_of_isSome live (by decide), by decide⟩

theorem witness_MemoriesStayCanonical :
    sending.txbuf.wf = true ∧ sending.payload.wf = true ∧ ∃ t, exec (.txDone 0) sending = .next t :=
  ⟨by decide, by decide, _, next_of_isSome live (by decide)⟩

theorem witness_StepKeepsInvariant :
    Invariant ({ live with inbox := [Moment.only Answers.allOk (.tick 1)] } : State) ∧
      ∃ t, step { live with inbox := [Moment.only Answers.allOk (.tick 1)] } = .next t :=
  ⟨live_invariant, _, next_of_isSome live (by decide)⟩

theorem witness_RunsNeverStop : Invariant live := live_invariant

/-- Example S8 in the terms of the second clause; and an INIT that answers `Ok` from an invariant state. -/
theorem witness_BufferShowsLastDescriptors :
    (Invariant State.reset ∧ ∃ t, exec i1 State.reset = .next t ∧ .response .ok ∈ t.outputs) ∧
    live.ctxValid = true ∧ Shows live [none] ∧ (∀ i ∈ [e4 0], i ≠ .rst) ∧ ∃ t, execAll [e4 0] live = .next t := by
  refine ⟨⟨⟨by decide, by decide, by decide⟩, _, next_of_isSome live (by decide), by decide⟩, by decide,
    ⟨by decide, fun o => ?_⟩, by decide, _, next_of_isSome live (by decide)⟩
  by_cases h : o < 24
  · revert o; decide
  · have hm : live.txbuf = Memory.zeroFill 24 Memory.unspecified := by decide
    have hl : (imageBytes [none]).length ≤ o := by
      have : (imageBytes [none]).length = 24 := by decide
      omega
    rw [hm, Memory.read_zeroFill, if_neg h, List.getElem?_eq_none hl]; rfl

end Sys2Proof.Tests
end

