-- ==== Sys2Proof/Proofs/Encoding.lean ====
section
/-! PROOF. The wire frame assembled from its fields (30_encoding.md R81, R84). The one idea: two adjacent fields of a
descriptor, each zero-extended and shifted only into its position, are the joined field, so joining from the low end
up leaves the descriptor's low 63 bits under the start bit. -/

namespace Sys2Proof.Machine

/-- The bits `[b, b + k)` and the `n` bits above them, or-ed each at its place, are the bits `[b, b + k + n)`. -/
theorem extractLsb'_shiftLeft_or_extractLsb' {w : Nat} (v : BitVec w) (b k n u : Nat) :
    ((v.extractLsb' (b + k) n).setWidth u <<< k) ||| (v.extractLsb' b k).setWidth u =
      (v.extractLsb' b (n + k)).setWidth u := by
  rw [← BitVec.setWidth_append_eq_shiftLeft_setWidth_or, BitVec.extractLsb'_append_extractLsb'_eq_extractLsb' rfl]

/-- The three level fields fill the 15 bits under the start bit (30_encoding.md R81). -/
theorem word0_pixelOf (desc : Desc) :
    word0 (pixelOf desc) = 0x8000#16 ||| (desc.extractLsb' 48 15).setWidth 16 := by
  have green_blue := extractLsb'_shiftLeft_or_extractLsb' desc 48 5 5 16
  have red_rest := extractLsb'_shiftLeft_or_extractLsb' desc 48 10 5 16
  simp only [Nat.reduceAdd] at green_blue red_rest
  simp only [word0, pixelOf, BitVec.or_assoc, green_blue, red_rest]

/-- Forcing the start bit keeps exactly the other 63 bits of the descriptor: its own bit 63 is lost. -/
theorem forceStart_eq_or_low63 (desc : Desc) :
    forceStart desc = 0x8000000000000000#64 ||| (desc.extractLsb' 0 63).setWidth 64 := by
  ext i hi
  by_cases h : i < 63
  · simp [forceStart, h, Bool.or_comm, hi]
  · obtain rfl : i = 63 := by omega
    simp [forceStart]

/-- The frame assembled from a descriptor's fields is the frame SET_PIXEL stores. -/
theorem assembleFrame_pixelOf (desc : Desc) : assembleFrame (pixelOf desc) = forceStart desc := by
  have green_blue := extractLsb'_shiftLeft_or_extractLsb' desc 0 16 16 64
  have red_rest := extractLsb'_shiftLeft_or_extractLsb' desc 0 32 16 64
  have level_rest := extractLsb'_shiftLeft_or_extractLsb' desc 0 48 15 64
  have zero_extend : ((desc.extractLsb' 48 15).setWidth 16).setWidth 64 = (desc.extractLsb' 48 15).setWidth 64 :=
    BitVec.setWidth_setWidth (by decide)
  simp only [Nat.reduceAdd] at green_blue red_rest level_rest
  rw [assembleFrame, word0_pixelOf, BitVec.setWidth_or, BitVec.shiftLeft_or_distrib, zero_extend]
  simp only [pixelOf, BitVec.or_assoc, green_blue, red_rest, level_rest, forceStart_eq_or_low63]
  rfl

end Sys2Proof.Machine

open Sys2Proof Sys2Proof.Machine

/-- Settles O26: the first clause is the second with `assembleFrame` and `pixelOf` written out, and the third is the
second under `beBytes`. -/
theorem frameIsAssembledFromFields : Obligations.FrameIsAssembledFromFields := by
  intro desc
  have assembled := assembleFrame_pixelOf desc
  exact ⟨assembled, assembled, by rw [assembled]; rfl⟩

end

