-- ==== Sys2Proof/Proofs/Init.lean ====
section
/-! PROOF. What INIT answers (40_init.md R126, R128, R135). The one idea: INIT answers exactly one status, the one
of the check that turns it away or else the one its acquisition ends with, and only a check answers with a validation
error. -/

namespace Sys2Proof.Machine

/-- The status acquisition ends with: the first collaborator that does not answer Ok decides (40_init.md R130 to
R133). -/
def acquisitionStatus (s : State) : Status :=
  match s.answers.alloc, s.answers.transport, s.answers.timer with
  | .outOfMemory, _, _ => .outOfMemory
  | .ok, .error reason, _ => resourceStatus reason
  | .ok, .ok, .fail => resourceStatus s.timerFailStatus
  | .ok, .ok, .ok => .ok

/-- The status INIT answers with. -/
def initStatus (cb : BitVec 1) (fc : BitVec 4) (len : BitVec 16) (clk : BitVec 32) (s : State) : Status :=
  (initCheck cb fc len clk s).getD (acquisitionStatus s)

theorem legalFreqCode_iff {fc : BitVec 4} : legalFreqCode fc = true ↔ fc.toNat < 12 := decide_eq_true_iff

theorem legalFreqCode_of_getElem? {fc : BitVec 4} {f : Nat} (h : Config.freqSet[fc.toNat]? = some f) :
    legalFreqCode fc = true := by
  obtain ⟨in_range, -⟩ := List.getElem?_eq_some_iff.1 h
  exact legalFreqCode_iff.2 in_range

theorem freqHz_of_getElem? {fc : BitVec 4} {f : Nat} (h : Config.freqSet[fc.toNat]? = some f) : freqHz fc = f := by
  rw [freqHz, List.getD_eq_getElem?_getD, h, Option.getD_some]

theorem requiredRate_eq (length freq : Nat) : requiredRate length freq = (16 + length * 8) * 8 * freq * 2 := rfl

theorem resourceStatus_class (e : ResourceError) : statusClass (resourceStatus e) = .resource := by
  cases e <;> rfl

section
variable {b d c : BitVec 8} {cb : BitVec 1} {fc : BitVec 4} {len : BitVec 16} {clk : BitVec 32}
  {s t : State} {st : Status}

/-! ### Checks -/

/-- Check 4 decides once checks 1 to 3 have passed (40_init.md R126). -/
theorem validate_insufficientRate (hmin : 1 ≤ len.toNat) (hmax : len.toNat ≤ 1024) (hclk : clk.toNat ≤ 40000000)
    (hrate : clk.toNat < requiredRate len.toNat (freqHz fc)) :
    validate 1#1 fc len clk = some .insufficientDataRate := by
  unfold validate Config.minStripLength Config.maxStripLength Config.clockCeilingHz
  rw [if_neg (by omega), if_neg (by omega), if_neg (by decide), if_pos hrate]

theorem initCheck_of_validate_some (hfc : legalFreqCode fc = true) (h : validate cb fc len clk = some st) :
    initCheck cb fc len clk s = some st := by
  simp [initCheck, hfc, h]

theorem initCheck_live (hfc : legalFreqCode fc = true) (h : validate cb fc len clk = none) (hv : s.ctxValid = true) :
    initCheck cb fc len clk s = some .transportInUse := by
  simp [initCheck, hfc, h, hv]

/-- An INIT that fails validation changes nothing but the response (40_init.md R128). -/
theorem exec_init_of_validate_some (hfc : legalFreqCode fc = true) (h : validate cb fc len clk = some st) :
    exec (.init b d c cb fc len clk) s = .next { s with outputs := [.response st] } :=
  execInit_rejected (initCheck_of_validate_some hfc h)

/-! ### The one status INIT answers with -/

theorem acquisitionStatus_allocFails (ha : s.answers.alloc = .outOfMemory) : acquisitionStatus s = .outOfMemory := by
  simp only [acquisitionStatus, ha]

theorem acquisitionStatus_openFails {e : ResourceError} (ha : s.answers.alloc = .ok)
    (ht : s.answers.transport = .error e) : acquisitionStatus s = resourceStatus e := by
  simp only [acquisitionStatus, ha, ht]

theorem acquisitionStatus_timerFails (ha : s.answers.alloc = .ok) (ht : s.answers.transport = .ok)
    (hm : s.answers.timer = .fail) : acquisitionStatus s = resourceStatus s.timerFailStatus := by
  simp only [acquisitionStatus, ha, ht, hm]

theorem acquisitionStatus_succeeds (ha : s.answers.alloc = .ok) (ht : s.answers.transport = .ok)
    (hm : s.answers.timer = .ok) : acquisitionStatus s = .ok := by
  simp only [acquisitionStatus, ha, ht, hm]

/-- Acquisition ends with `Ok` when all three collaborators answer Ok, else with a resource error (60_exceptions.md
R220 (b)). -/
theorem acquisitionStatus_cases (s : State) :
    (acquisitionStatus s = .ok ∧ s.answers.alloc = .ok ∧ s.answers.transport = .ok ∧ s.answers.timer = .ok) ∨
      (statusClass (acquisitionStatus s) = .resource ∧
        ¬(s.answers.alloc = .ok ∧ s.answers.transport = .ok ∧ s.answers.timer = .ok)) := by
  rcases acquire_cases s with ha | ⟨ha, e, ht⟩ | ⟨ha, ht, hm⟩ | ⟨ha, ht, hm⟩
  · exact .inr ⟨by rw [acquisitionStatus_allocFails ha]; rfl, by simp [ha]⟩
  · exact .inr ⟨by rw [acquisitionStatus_openFails ha ht, resourceStatus_class], by simp [ht]⟩
  · exact .inr ⟨by rw [acquisitionStatus_timerFails ha ht hm, resourceStatus_class], by simp [hm]⟩
  · exact .inl ⟨acquisitionStatus_succeeds ha ht hm, ha, ht, hm⟩

theorem acquisitionStatus_eq_ok_iff :
    acquisitionStatus s = .ok ↔ s.answers.alloc = .ok ∧ s.answers.transport = .ok ∧ s.answers.timer = .ok := by
  rcases acquisitionStatus_cases s with ⟨ok, all_ok⟩ | ⟨error, not_all_ok⟩
  · exact iff_of_true ok all_ok
  · exact iff_of_false (fun ok => by rw [ok] at error; cases error) not_all_ok

theorem acquisitionStatus_not_validation : statusClass (acquisitionStatus s) ≠ .validation := by
  rcases acquisitionStatus_cases s with ⟨ok, -⟩ | ⟨error, -⟩
  · simp [ok, statusClass]
  · simp [error]

/-- Acquisition answers its status and no other. -/
theorem acquire_response_iff {cfg : Cfg} (h : acquire cfg s = .next t) (hs : s.outputs = []) :
    .response st ∈ t.outputs ↔ st = acquisitionStatus s := by
  rcases acquire_cases s with ha | ⟨ha, e, ht⟩ | ⟨ha, ht, hm⟩ | ⟨ha, ht, hm⟩
  · rw [acquire_allocFails ha] at h; cases h; simp [hs, acquisitionStatus_allocFails ha]
  · rw [acquire_openFails ha ht] at h; cases h; simp [hs, acquisitionStatus_openFails ha ht]
  · rw [acquire_timerFails ha ht hm] at h; cases h; simp [hs, acquisitionStatus_timerFails ha ht hm]
  · rw [acquire_succeeds ha ht hm] at h; cases h; simp [hs, acquisitionStatus_succeeds ha ht hm]

/-- INIT answers its status and no other (30_encoding.md R101). -/
theorem exec_init_response_iff (h : exec (.init b d c cb fc len clk) s = .next t) :
    .response st ∈ t.outputs ↔ st = initStatus cb fc len clk s := by
  rcases exec_init_next h with ⟨st', rejected, rfl⟩ | ⟨accepted, acquired⟩
  · simp [initStatus, rejected]
  · rw [acquire_response_iff acquired rfl, initStatus, accepted]; rfl

theorem initStatus_eq_ok_iff :
    initStatus cb fc len clk s = .ok ↔ initCheck cb fc len clk s = none ∧ acquisitionStatus s = .ok := by
  have not_ok : initCheck cb fc len clk s ≠ some .ok := initCheck_ne_ok
  rw [initStatus]
  cases h : initCheck cb fc len clk s with
  | none => simp
  | some st => simpa [h] using not_ok

/-- Once the validator has passed, INIT answers no validation error: what is left are the live context and the
collaborators (60_exceptions.md R220). -/
theorem initStatus_not_validation (hfc : legalFreqCode fc = true) (h : validate cb fc len clk = none) :
    statusClass (initStatus cb fc len clk s) ≠ .validation := by
  cases hv : s.ctxValid with
  | true => simp [initStatus, initCheck_live hfc h hv, statusClass]
  | false =>
    rw [initStatus, initCheck_eq_none.2 ⟨hfc, h, hv⟩]
    exact acquisitionStatus_not_validation

end

end Sys2Proof.Machine

open Sys2Proof Sys2Proof.Machine

/-- Settles O14: below the required rate the validator ends at check 4; at or above it the validator passes, and no
other status of INIT is a validation error. -/
theorem initRejectsInsufficientRate : Obligations.InitRejectsInsufficientRate := by
  intro b d c fc len clk s f hf hmin hmax hclk
  have legal := legalFreqCode_of_getElem? hf
  have rate : requiredRate len.toNat (freqHz fc) = (16 + len.toNat * 8) * 8 * f * 2 := by
    rw [freqHz_of_getElem? hf, requiredRate_eq]
  refine ⟨fun below => ?_, fun enough => ?_⟩
  · exact exec_init_of_validate_some legal (validate_insufficientRate hmin hmax hclk (by rwa [rate]))
  · have passed : validate 1#1 fc len clk = none := validate_eq_none.2 ⟨hmin, hmax, hclk, rfl, by rwa [rate]⟩
    obtain ⟨t, done, -⟩ := exec_init_completes b d c 1#1 fc len clk s
    refine ⟨t, done, fun answered => initStatus_not_validation legal passed (s := s) ?_⟩
    rw [← (exec_init_response_iff done).1 answered]; rfl

/-- Settles O16: a failing check leaves the response as the only output, and a response is no request. -/
theorem initValidatorIsPure : Obligations.InitValidatorIsPure := by
  intro b d c cb fc len clk s legal
  refine ⟨fun st failed => exec_init_of_validate_some legal failed, fun t done ⟨o, emitted, asks⟩ => ?_⟩
  rcases exec_init_next done with ⟨st, -, rfl⟩ | ⟨accepted, -⟩
  · obtain rfl := List.mem_singleton.1 emitted
    cases asks
  · obtain ⟨-, passed, -⟩ := initCheck_eq_none.1 accepted
    exact passed

/-- Settles O19: INIT's one status is `Ok` exactly when no check turns it away and acquisition ends with `Ok`. -/
theorem initAnswersOkExactlyWhen : Obligations.InitAnswersOkExactlyWhen := by
  intro b d c cb fc len clk s
  obtain ⟨t, done, -⟩ := exec_init_completes b d c cb fc len clk s
  calc (∃ t, exec (.init b d c cb fc len clk) s = .next t ∧ .response .ok ∈ t.outputs)
    _ ↔ initStatus cb fc len clk s = .ok := by
      constructor
      · rintro ⟨t, done, answered⟩
        exact ((exec_init_response_iff done).1 answered).symm
      · exact fun ok => ⟨t, done, (exec_init_response_iff done).2 ok.symm⟩
    _ ↔ _ := by
      rw [initStatus_eq_ok_iff, initCheck_eq_none, legalFreqCode_iff, validate_eq_none, requiredRate_eq,
        acquisitionStatus_eq_ok_iff]
      simp only [and_assoc]

end

section
/-! PROOF. The stored frame bit by bit, and what SET_PIXEL answers (41_set_pixel.md R152, R153, R155, R161). The one
idea about the frame: its bytes are the descriptor's bits in place, but for bit 63, which is 1; so whatever reads only
the other 63 bits reads the same of the frame as of the descriptor. -/

namespace Sys2Proof.Machine

/-! ### The bits of the stored frame -/

section
variable (desc : Desc)

theorem getLsbD_forceStart (i : Nat) : (forceStart desc).getLsbD i = (desc.getLsbD i || decide (63 = i)) := by
  have start_bit : 0x8000000000000000#64 = BitVec.twoPow 64 63 := rfl
  rw [forceStart, start_bit, BitVec.getLsbD_or, BitVec.getLsbD_twoPow]
  simp

theorem getLsbD_forceStart_63 : (forceStart desc).getLsbD 63 = true := by
  rw [getLsbD_forceStart, decide_eq_true rfl, Bool.or_true]

theorem getLsbD_forceStart_of_lt {i : Nat} (h : i < 63) : (forceStart desc).getLsbD i = desc.getLsbD i := by
  rw [getLsbD_forceStart, decide_eq_false (by omega), Bool.or_false]

/-- A field below the start bit is stored unchanged. -/
theorem extractLsb'_forceStart {start len : Nat} (h : start + len ≤ 63) :
    (forceStart desc).extractLsb' start len = desc.extractLsb' start len := by
  apply BitVec.eq_of_getLsbD_eq
  intro i hi
  simp only [BitVec.getLsbD_extractLsb', getLsbD_forceStart_of_lt desc (show start + i < 63 by omega)]

/-- None of the six fields has a part in bit 63 (30_encoding.md R83). -/
theorem pixelOf_forceStart : pixelOf (forceStart desc) = pixelOf desc := by
  simp (disch := decide) only [pixelOf, extractLsb'_forceStart]

/-- Byte `7 - i / 8` of the frame carries bit `i` of the number stored, at `i % 8`. -/
theorem encodeFrame_bit {i : Nat} (h : i < 64) :
    ((encodeFrame desc)[7 - i / 8]?).map (fun b => b.getLsbD (i % 8)) = some ((forceStart desc).getLsbD i) := by
  have place : 8 * (8 - 1 - (7 - i / 8)) + i % 8 = i := by omega
  have in_byte : i % 8 < 8 := by omega
  rw [encodeFrame, Config.frameBytes, beBytes_getElem? 8 _ _ (by omega), Option.map_some,
    BitVec.getLsbD_extractLsb', place]
  simp [in_byte]

end

/-- Forcing the start bit identifies exactly the descriptors that agree on the other 63 bits. -/
theorem forceStart_eq_iff {desc desc' : Desc} :
    forceStart desc = forceStart desc' ↔ ∀ i, i < 63 → desc.getLsbD i = desc'.getLsbD i := by
  constructor
  · intro same i h
    rw [← getLsbD_forceStart_of_lt desc h, same, getLsbD_forceStart_of_lt desc' h]
  · intro low
    apply BitVec.eq_of_getLsbD_eq
    intro i hi
    by_cases h : i < 63
    · rw [getLsbD_forceStart_of_lt desc h, low i h, getLsbD_forceStart_of_lt desc' h]
    · obtain rfl : i = 63 := by omega
      rw [getLsbD_forceStart_63, getLsbD_forceStart_63]

/-- The bytes lose nothing of the number stored. -/
theorem encodeFrame_eq_iff {desc desc' : Desc} :
    encodeFrame desc = encodeFrame desc' ↔ forceStart desc = forceStart desc' := by
  refine ⟨fun same => BitVec.eq_of_getLsbD_eq fun i hi => ?_, fun same => by rw [encodeFrame, same, encodeFrame]⟩
  have bit := encodeFrame_bit desc hi
  rw [same, encodeFrame_bit desc' hi] at bit
  exact (Option.some.inj bit).symm

/-- A field of a field is a field of the whole. -/
theorem extractLsb'_extractLsb' {w base start len len' : Nat} (v : BitVec w) (h : start + len ≤ len') :
    (v.extractLsb' base len').extractLsb' start len = v.extractLsb' (base + start) len := by
  apply BitVec.eq_of_getLsbD_eq
  intro i hi
  have inside : start + i < len' := by omega
  simp [hi, inside, Nat.add_assoc]

/-- Decoding reads the six fields of whatever number the 8 bytes stand for: two adjacent bytes are one 16-bit word
(30_encoding.md R85). -/
theorem decodeFrame_beBytes (v : Desc) : decodeFrame (beBytes 8 v) = some (pixelOf v) := by
  have bytes : beBytes 8 v =
      [v.extractLsb' 56 8, v.extractLsb' 48 8, v.extractLsb' 40 8, v.extractLsb' 32 8,
        v.extractLsb' 24 8, v.extractLsb' 16 8, v.extractLsb' 8 8, v.extractLsb' 0 8] := rfl
  have join (start : Nat) : v.extractLsb' (start + 8) 8 ++ v.extractLsb' start 8 = v.extractLsb' start 16 :=
    BitVec.extractLsb'_append_extractLsb'_eq_extractLsb' rfl
  rw [bytes, decodeFrame, join 48, join 32, join 16, join 0]
  simp (disch := decide) only [extractLsb'_extractLsb', pixelOf]

/-! ### What SET_PIXEL answers -/

section
variable {index : BitVec 32} {desc : Desc} {s : State}

/-- The 8 bytes of a pixel of the strip exist (10_state.md R30). -/
theorem pixelOffset_le_capacity (hi : index.toNat < s.cfg.stripLength.toNat) (hlen : s.cfg.stripLength.toNat ≤ 1024) :
    pixelOffset index + 8 ≤ Config.bufCapacity := by
  rw [pixelOffset_eq, bufCapacity_eq]; omega

/-- An index of the strip stores and answers `Ok` (41_set_pixel.md R152). -/
theorem exec_setPixel_stores (hv : s.ctxValid = true) (hi : index.toNat < s.cfg.stripLength.toNat)
    (hlen : s.cfg.stripLength.toNat ≤ 1024) :
    exec (.setPixel index desc) s =
      .next ((s.begin.store (pixelOffset index) (encodeFrame desc)).emit (.response .ok)) :=
  execSetPixel_stores (pixelCheck_eq_none.2 ⟨hv, hi⟩) (pixelOffset_le_capacity hi hlen)

end

end Sys2Proof.Machine

open Sys2Proof Sys2Proof.Machine

/-- Settles O22: the command ends in the state after the store, whose bytes read as the frame inside the pixel's 8
offsets and as before outside. -/
theorem setPixelStoresFrame : Obligations.SetPixelStoresFrame := by
  intro index desc s hv hi hlen
  have offset : pixelOffset index = 16 + 8 * index.toNat := by rw [pixelOffset_eq, Nat.mul_comm]
  refine ⟨_, exec_setPixel_stores hv hi hlen, by simp, fun k hk => ?inside, fun o ho => ?outside, ?context, ?scheduler,
    ?inputs, fun quiet => ⟨?payload, ?draws⟩⟩
  case inside =>
    rw [State.emit_txbuf, State.store_txbuf, offset]
    exact Memory.read_writeBytes_inside _ _ _ _ (by rwa [encodeFrame_length])
  case outside =>
    rw [State.emit_txbuf, State.store_txbuf, offset]
    exact Memory.read_writeBytes_outside _ _ _ _ (by rw [encodeFrame_length]; omega)
  case context => simp [SameContext]
  case scheduler => simp [SameScheduler]
  case inputs => simp [SameInputs]
  case payload => exact State.store_payload_quiet _ _ _ quiet
  case draws => exact State.store_freeCount_quiet _ _ _ quiet

/-- Settles O23: at or above the strip length the index check answers, below it the store does, with `Ok`. -/
theorem setPixelRejectsBadIndex : Obligations.SetPixelRejectsBadIndex := by
  intro index desc s hv hlen
  refine ⟨fun beyond => execSetPixel_rejected (pixelCheck_badIndex hv beyond), fun inside => ?_⟩
  exact ⟨_, exec_setPixel_stores hv inside hlen, by simp⟩

/-- Settles O28: decoding reads the fields of the number stored, which are the descriptor's; the bytes carry that number
whole, and it is the descriptor but for bit 63. -/
theorem frameRoundTrip : Obligations.FrameRoundTrip := by
  refine ⟨fun desc => ?_, fun desc => ?_, fun desc desc' => encodeFrame_eq_iff.trans forceStart_eq_iff⟩
  · exact (decodeFrame_beBytes (forceStart desc)).trans (by rw [pixelOf_forceStart])
  · refine ⟨_, _, beBytes_succ (forceStart desc) 7, ?_⟩
    simp [getLsbD_forceStart]

/-- Settles O29: every bit of the number stored stands at its place in the bytes; bit 63 of that number is 1 and the
others are the descriptor's. -/
theorem startBitIsForced : Obligations.StartBitIsForced := by
  refine ⟨fun desc => ?_, fun desc desc' low => ?_, fun desc i h => ?_⟩
  · exact (encodeFrame_bit desc (show 63 < 64 by decide)).trans (by rw [getLsbD_forceStart_63])
  · exact encodeFrame_eq_iff.2 (forceStart_eq_iff.2 low)
  · rw [encodeFrame_bit desc (by omega), getLsbD_forceStart_of_lt desc h]

end

section
/-! PROOF. The transfer that TICK submits, and its content (42_scheduler.md R171, R182). The one idea: from Submit to
TX_DONE an operation that stores nothing changes only the pending tick and the outputs, so the payload stays the buffer
as Submit read it. -/

namespace Sys2Proof.Machine

/-! ### Submit by TICK -/

/-- TICK in Idle, for a strip whose buffer exists: the whole next state (42_scheduler.md R171). -/
theorem exec_tick_submits {s : State} (hv : s.ctxValid = true) (hs : s.sched = .idle)
    (hlen : s.cfg.stripLength.toNat ≤ 1024) :
    exec .tick s =
      .next { s with
        sched := .transmitting
        payload := s.txbuf.upTo (bufLen s.cfg)
        outputs := [.txSubmit (BitVec.ofNat 14 (bufLen s.cfg))] } :=
  (execTick_idle hv hs).trans (submit_eq (s := s.begin) (bufLen_le_capacity hlen))

theorem Memory.read_upTo_of_lt (m : Memory) {n o : Nat} (h : o < n) : (m.upTo n).read o = m.read o := by
  rw [Memory.read_upTo, if_pos h]

theorem Memory.read_upTo_of_le (m : Memory) {n o : Nat} (h : n ≤ o) : (m.upTo n).read o = none := by
  rw [Memory.read_upTo, if_neg (Nat.not_lt.2 h)]

/-! ### A transfer in flight -/

/-- On a strip of so many pixels the operation leaves a transfer in flight alone: it is neither TX_DONE nor RST, nor a
SET_PIXEL that stores. -/
abbrev LeavesTransferAlone (length : Nat) (i : Instr) : Prop :=
  leavesTransmitting i = false ∧ ∀ index desc, i = .setPixel index desc → length ≤ index.toNat

section
variable {s t : State}

/-- During a transfer such an operation changes at most the pending tick and the outputs. -/
theorem exec_transmitting_next {i : Instr} (h : exec i s = .next t) (hv : s.ctxValid = true)
    (hs : s.sched = .transmitting) (hi : LeavesTransferAlone s.cfg.stripLength.toNat i) :
    ∃ pending outputs, t = { s with tickPending := pending, outputs := outputs } := by
  obtain ⟨stays, beyond⟩ := hi
  cases i with
  | init =>
    obtain ⟨st, rfl⟩ := exec_init_live hv h
    exact ⟨_, _, rfl⟩
  | setPixel index desc =>
    rw [exec_setPixel, execSetPixel_rejected (pixelCheck_badIndex hv (beyond index desc rfl))] at h
    cases h
    exact ⟨_, _, rfl⟩
  | tick =>
    rw [exec_tick, execTick_busy hv (by simp [hs])] at h
    cases h
    exact ⟨_, _, rfl⟩
  | cbRet =>
    rw [exec_cbRet, execCbRet_ignored (.inr (by simp [hs]))] at h
    cases h
    exact ⟨_, _, rfl⟩
  | txDone | rst => cases stays

/-- So does any number of them. -/
theorem execAll_transmitting_next {ops : List Instr} (h : execAll ops s = .next t) (hv : s.ctxValid = true)
    (hs : s.sched = .transmitting) (hops : ∀ i ∈ ops, LeavesTransferAlone s.cfg.stripLength.toNat i) :
    ∃ pending outputs, t = { s with tickPending := pending, outputs := outputs } := by
  induction ops generalizing s with
  | nil =>
    cases h
    exact ⟨_, _, rfl⟩
  | cons i ops ih =>
    rw [List.forall_mem_cons] at hops
    obtain ⟨r, first, rest⟩ := execAll_cons_next h
    obtain ⟨_, _, rfl⟩ := exec_transmitting_next first hv hs hops.1
    obtain ⟨_, _, rfl⟩ := ih rest hv hs hops.2
    exact ⟨_, _, rfl⟩

/-- TX_DONE leaves the record of the transfer as it is. -/
theorem exec_txDone_payload {e : BitVec 1} (h : exec (.txDone e) s = .next t) : t.payload = s.payload := by
  rcases exec_txDone_next h with ⟨_, rfl⟩ | ⟨_, _, rfl⟩ <;> rfl

end

end Sys2Proof.Machine

open Sys2Proof Sys2Proof.Machine

/-- Settles O33: the next state is Submit's, whose payload is the buffer below its length. -/
theorem tickInIdleSubmitsWholeBuffer : Obligations.TickInIdleSubmitsWholeBuffer := by
  intro s hv hs hlen
  exact ⟨_, exec_tick_submits hv hs hlen, rfl, rfl, fun o below => Memory.read_upTo_of_lt _ below,
    fun o above => Memory.read_upTo_of_le _ above, rfl, rfl, rfl, ⟨rfl, rfl, rfl⟩, rfl, rfl, rfl⟩

/-- Settles O41: the payload at TX_DONE is the one TICK submitted, the buffer below its length, whose preamble the
invariant says is zero. -/
theorem payloadIsBufferAtTick : Obligations.PayloadIsBufferAtTick := by
  intro ops e s t u v inv hv hs tick hops run ends
  obtain ⟨⟨_, hlen, _⟩, _, ⟨_, preamble, _⟩, _⟩ := inv.1 hv
  rw [exec_tick_submits hv hs hlen] at tick
  cases tick
  obtain ⟨_, _, rfl⟩ := execAll_transmitting_next run hv rfl hops
  have submitted : v.payload = s.txbuf.upTo (bufLen s.cfg) := exec_txDone_payload ends
  have below : ∀ o, o < bufLen s.cfg → v.payload.read o = s.txbuf.read o := fun o ho => by
    rw [submitted, Memory.read_upTo_of_lt _ ho]
  have above : ∀ o, bufLen s.cfg ≤ o → v.payload.read o = none := fun o ho => by
    rw [submitted, Memory.read_upTo_of_le _ ho]
  exact ⟨below, above, fun o ho => (below o (Nat.lt_add_right _ ho)).trans (preamble o ho)⟩

end

section
/-! PROOF. The end of a context (70_reset_and_hazards.md R261). The one idea: only INIT and RST write the context's
fields at all, and INIT is turned away while a context lives. -/

open Sys2Proof Sys2Proof.Machine

/-- Settles O47, instruction by instruction: INIT finds the context live, and each next state that SET_PIXEL or an event
can answer has the context's three fields as before. -/
theorem contextEndsOnlyByReset : Obligations.ContextEndsOnlyByReset := by
  intro i s t live not_rst done
  cases i with
  | init =>
    obtain ⟨st, rfl⟩ := exec_init_live live done
    exact ⟨rfl, rfl, rfl⟩
  | setPixel index desc =>
    rcases execSetPixel_next done with ⟨st, -, rfl⟩ | ⟨-, -, rfl⟩
    · exact ⟨rfl, rfl, rfl⟩
    · simp [SameContext]
  | tick => rcases exec_tick_next done with ⟨-, rfl⟩ | ⟨-, -, -, rfl⟩ | ⟨-, -, rfl⟩ <;> exact ⟨rfl, rfl, rfl⟩
  | txDone => rcases exec_txDone_next done with ⟨-, rfl⟩ | ⟨-, -, rfl⟩ <;> exact ⟨rfl, rfl, rfl⟩
  | cbRet => rcases exec_cbRet_next done with ⟨-, rfl⟩ | ⟨-, -, -, rfl⟩ | ⟨-, -, -, -, rfl⟩ <;> exact ⟨rfl, rfl, rfl⟩
  | rst => exact absurd rfl not_rst

end

section
/-! PROOF. The encodings (30_encoding.md sections 3 and 4). The one idea: a word is the row of its fields, so the
decoder reads back what the encoder put there, and a word whose fixed fields pass the decoder's checks is the
encoder's own. -/

namespace Sys2Proof

open Machine

section
variable {w : CmdWord} {i : Instr}

/-! ### What each format decodes -/

theorem decodeCmd_of_initOpcode (h : w.extractLsb' 120 8 = 0x01#8) : decodeCmd w = decodeInit w := if_pos h

theorem decodeCmd_of_setPixelOpcode (h : w.extractLsb' 120 8 = 0x02#8) : decodeCmd w = decodeSetPixel w := by
  rw [decodeCmd, if_neg (by rw [h]; decide), if_pos h]

theorem decodeCmd_of_otherOpcode (h1 : w.extractLsb' 120 8 ≠ 0x01#8) (h2 : w.extractLsb' 120 8 ≠ 0x02#8) :
    decodeCmd w = .error .unknownOpcode := by
  rw [decodeCmd, if_neg h1, if_neg h2]

/-- Format `I` decodes exactly the words with no reserved bit set and a legal frequency code (30_encoding.md R106
(b)). -/
theorem decodeInit_eq_ok_iff :
    decodeInit w = .ok i ↔
      (w.extractLsb' 89 7 = 0#7 ∧ w.extractLsb' 84 4 = 0#4 ∧ w.extractLsb' 0 32 = 0#32) ∧
        legalFreqCode (w.extractLsb' 80 4) = true ∧
          i = .init (w.extractLsb' 112 8) (w.extractLsb' 104 8) (w.extractLsb' 96 8) (w.extractLsb' 88 1)
            (w.extractLsb' 80 4) (w.extractLsb' 64 16) (w.extractLsb' 32 32) := by
  unfold decodeInit
  split
  · next reserved =>
    simp only [ne_eq, ← not_and_or] at reserved
    simp [reserved]
  · next clear =>
    simp only [ne_eq, ← not_and_or, not_not] at clear
    split
    · next legal => simp [clear, legal, eq_comm]
    · next illegal => simp [illegal]

/-- Format `P` decodes exactly the words with no reserved bit set (30_encoding.md R106 (c)). -/
theorem decodeSetPixel_eq_ok_iff :
    decodeSetPixel w = .ok i ↔
      w.extractLsb' 96 24 = 0#24 ∧ i = .setPixel (w.extractLsb' 64 32) (w.extractLsb' 0 64) := by
  unfold decodeSetPixel
  split
  · next reserved => simp [reserved]
  · next clear => simp [not_not.1 clear, eq_comm]

/-! ### The two directions -/

theorem decodeCmd_encodeInit {b d c : BitVec 8} {cb : BitVec 1} {fc : BitVec 4} {len : BitVec 16} {clk : BitVec 32}
    (legal : legalFreqCode fc = true) :
    decodeCmd (encodeInit b d c cb fc len clk) = .ok (.init b d c cb fc len clk) := by
  rw [decodeCmd_of_initOpcode (encodeInit_opcode ..), decodeInit_eq_ok_iff]
  refine ⟨⟨encodeInit_reservedA .., encodeInit_reservedB .., encodeInit_reservedC ..⟩, ?_, ?_⟩
  · rwa [encodeInit_freqCode]
  · rw [encodeInit_busId, encodeInit_dataPin, encodeInit_clockPin, encodeInit_cbPresent, encodeInit_freqCode,
      encodeInit_stripLength, encodeInit_clockSpeedHz]

theorem decodeCmd_encodeSetPixel (index : BitVec 32) (desc : Desc) :
    decodeCmd (encodeSetPixel index desc) = .ok (.setPixel index desc) := by
  rw [decodeCmd_of_setPixelOpcode (encodeSetPixel_opcode ..), decodeSetPixel_eq_ok_iff]
  exact ⟨encodeSetPixel_reserved .., by rw [encodeSetPixel_index, encodeSetPixel_desc]⟩

/-- A command word that decodes is the encoder's word for a well-formed instruction. -/
theorem encode_of_decodeCmd (h : decodeCmd w = .ok i) : WellFormed i = true ∧ encode i = .cmd w := by
  by_cases h1 : w.extractLsb' 120 8 = 0x01#8
  · rw [decodeCmd_of_initOpcode h1, decodeInit_eq_ok_iff] at h
    obtain ⟨⟨hA, hB, hC⟩, legal, rfl⟩ := h
    exact ⟨legal, congrArg Arrival.cmd (encodeInit_of_fields w h1 hA hB hC)⟩
  · by_cases h2 : w.extractLsb' 120 8 = 0x02#8
    · rw [decodeCmd_of_setPixelOpcode h2, decodeSetPixel_eq_ok_iff] at h
      obtain ⟨reserved, rfl⟩ := h
      exact ⟨rfl, congrArg Arrival.cmd (encodeSetPixel_of_fields w h2 reserved)⟩
    · rw [decodeCmd_of_otherOpcode h1 h2] at h
      cases h

/-! ### The serialised form -/

/-- The 16 bytes carry the whole word (30_encoding.md R102). -/
theorem decodeBytes_beBytes (w : CmdWord) : decodeBytes (beBytes 16 w) = decodeCmd w := by
  have fits : w.toNat % 256 ^ 16 = w.toNat := Nat.mod_eq_of_lt w.isLt
  rw [decodeBytes, if_pos (beBytes_length 16 w), beValue_beBytes, fits, BitVec.ofNat_toNat, BitVec.setWidth_eq]

theorem encodeBytes_of_cmd (h : encode i = .cmd w) : encodeBytes i = some (beBytes 16 w) := by
  rw [encodeBytes, h]

/-! ### What is rejected -/

theorem exists_error_iff {r : Except DecodeError Instr} : (∃ e, r = .error e) ↔ ¬∃ i, r = .ok i := by
  cases r <;> simp

theorem decodeInit_rejects_iff :
    (∃ e, decodeInit w = .error e) ↔
      w.extractLsb' 89 7 ≠ 0#7 ∨ w.extractLsb' 84 4 ≠ 0#4 ∨ w.extractLsb' 0 32 ≠ 0#32 ∨
        12 ≤ (w.extractLsb' 80 4).toNat := by
  simp only [exists_error_iff, decodeInit_eq_ok_iff, legalFreqCode_iff, exists_and_left, exists_eq, and_true,
    not_and_or, Nat.not_lt, ne_eq, or_assoc]

theorem decodeSetPixel_rejects_iff : (∃ e, decodeSetPixel w = .error e) ↔ w.extractLsb' 96 24 ≠ 0#24 := by
  simp only [exists_error_iff, decodeSetPixel_eq_ok_iff, exists_and_left, exists_eq, and_true, ne_eq]

end

end Sys2Proof

open Sys2Proof Sys2Proof.Machine

/-- Settles O1: the decoder reads back each field of the encoder's word, and each strobe on its own wire. -/
theorem decodeOfEncodeIsInstruction : Obligations.DecodeOfEncodeIsInstruction := by
  intro i wf
  cases i with
  | init => exact decodeCmd_encodeInit wf
  | setPixel index desc => exact decodeCmd_encodeSetPixel index desc
  | txDone txErr =>
    have both : ∀ e : BitVec 1, decode (encode (.txDone e)) = .ok (.txDone e) := by decide
    exact both txErr
  | tick | cbRet | rst => rfl

/-- Settles O2: command words by their fields; a strobe that is up is the only one its wire has, with `tx_err` beside
it on the wires of TX_DONE. -/
theorem encodeOfDecodeIsArrival : Obligations.EncodeOfDecodeIsArrival := by
  intro a i h
  cases a with
  | cmd w => exact encode_of_decodeCmd h
  | txDone strobe =>
    have every : ∀ b : BitVec 2, b[1] = true → encode (.txDone (b.extractLsb' 0 1)) = .txDone b := by decide
    rw [decode] at h
    split at h
    · next up => cases h; exact ⟨rfl, every strobe up⟩
    · cases h
  | tick strobe | cbDone strobe | rst strobe =>
    rw [decode] at h
    split at h
    · next up => cases h; exact ⟨rfl, by rw [up]; rfl⟩
    · cases h

/-- Settles O3: the bytes are the word's own, from the top, and stand for the word. -/
theorem serialisedCommandDecodes : Obligations.SerialisedCommandDecodes := by
  refine ⟨fun i w bytes wf encoded written => ?_, fun bytes wrong => if_neg wrong⟩
  obtain rfl : beBytes 16 w = bytes := Option.some.inj ((encodeBytes_of_cmd encoded).symm.trans written)
  have decoded : decode (.cmd w) = .ok i := encoded ▸ decodeOfEncodeIsInstruction i wf
  exact ⟨beBytes_length 16 w, beBytes_getElem? 16 w 0 (by decide), beBytes_getElem? 16 w 15 (by decide),
    (decodeBytes_beBytes w).trans decoded⟩

/-- Settles O4, opcode by opcode: each format rejects exactly what its own clause names. -/
theorem illegalWordsAreExactlyRejected : Obligations.IllegalWordsAreExactlyRejected := by
  intro w
  by_cases h1 : w.extractLsb' 120 8 = 0x01#8
  · rw [decodeCmd_of_initOpcode h1, decodeInit_rejects_iff]
    simp [h1]
  · by_cases h2 : w.extractLsb' 120 8 = 0x02#8
    · rw [decodeCmd_of_setPixelOpcode h2, decodeSetPixel_rejects_iff]
      simp [h2]
    · rw [decodeCmd_of_otherOpcode h1 h2]
      simp [h1, h2]

/-- Settles O5: the decoder evaluated on the words. -/
theorem sampleWordsDecode : Obligations.SampleWordsDecode := ⟨rfl, rfl, rfl, rfl, rfl, rfl, rfl⟩

end

section
/-! PROOF. What INIT does (40_init.md sections 1 to 3). The one idea: whichever collaborator fails, acquisition ends
in one of two shapes, and every output before its response is a request; the rest is which check decides. -/

namespace Sys2Proof.Machine

section
variable {b d c : BitVec 8} {cb : BitVec 1} {fc : BitVec 4} {len : BitVec 16} {clk : BitVec 32}
  {s t : State} {st : Status}

/-! ### Checks -/

/-- A legal code names a frequency from 1 to 120 Hz (30_encoding.md R88). -/
theorem freqHz_bounds (h : legalFreqCode fc = true) : 1 ≤ freqHz fc ∧ freqHz fc ≤ 120 := by
  have every : ∀ fc : BitVec 4, legalFreqCode fc = true → 1 ≤ freqHz fc ∧ freqHz fc ≤ 120 := by decide
  exact every fc h

/-- The required rate grows with the length and with the frequency (40_init.md R127). -/
theorem requiredRate_mono {n n' f f' : Nat} (hn : n ≤ n') (hf : f ≤ f') : requiredRate n f ≤ requiredRate n' f' := by
  rw [requiredRate_eq, requiredRate_eq]
  gcongr

/-- Check 1 (40_init.md R122). -/
theorem validate_badLength (h : len.toNat < 1 ∨ 1024 < len.toNat) :
    validate cb fc len clk = some .lengthOutOfRange := if_pos h

/-- With the length in range checks 2 to 4 are left. -/
theorem validate_goodLength (hmin : 1 ≤ len.toNat) (hmax : len.toNat ≤ 1024) :
    validate cb fc len clk =
      if 40000000 < clk.toNat then some .invalidParameter
      else if cb = 0#1 then some .invalidParameter
      else if clk.toNat < requiredRate len.toNat (freqHz fc) then some .insufficientDataRate
      else none := if_neg (show ¬(len.toNat < 1 ∨ 1024 < len.toNat) by omega)

/-- Checks 2 and 3 (40_init.md R123, R124). -/
theorem validate_badClockOrCallback (hmin : 1 ≤ len.toNat) (hmax : len.toNat ≤ 1024)
    (h : 40000000 < clk.toNat ∨ cb = 0#1) : validate cb fc len clk = some .invalidParameter := by
  rw [validate_goodLength hmin hmax]
  split
  · rfl
  · next low => rw [if_pos (h.resolve_left low)]

theorem validate_ne_lengthOutOfRange (hmin : 1 ≤ len.toNat) (hmax : len.toNat ≤ 1024) :
    validate cb fc len clk ≠ some .lengthOutOfRange := by
  rw [validate_goodLength hmin hmax]
  split_ifs <;> simp

theorem validate_ne_invalidParameter (hmin : 1 ≤ len.toNat) (hmax : len.toNat ≤ 1024) (hclk : clk.toNat ≤ 40000000) :
    validate 1#1 fc len clk ≠ some .invalidParameter := by
  rw [validate_goodLength hmin hmax, if_neg (Nat.not_lt.2 hclk), if_neg (by decide)]
  split <;> simp

/-- INIT answers a validation error only when the validator gives it. -/
theorem initStatus_of_validation (hfc : legalFreqCode fc = true) (hst : statusClass st = .validation)
    (h : initStatus cb fc len clk s = st) : validate cb fc len clk = some st := by
  cases hval : validate cb fc len clk with
  | none => exact absurd (h ▸ hst) (initStatus_not_validation hfc hval)
  | some st' => rw [initStatus, initCheck_of_validate_some hfc hval, Option.getD_some] at h; rw [h]

/-- So a validation error that the validator does not give is never answered. -/
theorem exec_init_never_answers (hfc : legalFreqCode fc = true) (hst : statusClass st = .validation)
    (h : validate cb fc len clk ≠ some st) :
    ∃ t, exec (.init b d c cb fc len clk) s = .next t ∧ .response st ∉ t.outputs := by
  obtain ⟨t, done, -⟩ := exec_init_completes b d c cb fc len clk s
  exact ⟨t, done, fun answered =>
    h (initStatus_of_validation hfc hst ((exec_init_response_iff done).1 answered).symm)⟩

/-! ### Acquisition -/

/-- Acquisition ends in one of two shapes: it fails, and TXBUF is lost and nothing more held than before; or it brings
the context to life (40_init.md R133, R134). -/
theorem acquire_next {cfg : Cfg} (h : acquire cfg s = .next t) :
    (acquisitionStatus s ≠ .ok ∧ ∃ held outputs, (s.held = Held.none → held = Held.none) ∧
        t = { s with txbuf := Memory.unspecified, held := held, outputs := outputs }) ∨
      (acquisitionStatus s = .ok ∧ ∃ outputs,
        t = { s with
          ctxValid := true
          sched := .idle
          tickPending := false
          cfg := cfg
          txbuf := s.txbuf.zeroFill (bufLen cfg)
          held := Held.all
          outputs := outputs }) := by
  rcases acquire_cases s with ha | ⟨ha, e, ht⟩ | ⟨ha, ht, hm⟩ | ⟨ha, ht, hm⟩
  · rw [acquire_allocFails ha] at h; cases h
    exact .inl ⟨by simp [acquisitionStatus_eq_ok_iff, ha], s.held, _, id, rfl⟩
  · rw [acquire_openFails ha ht] at h; cases h
    exact .inl ⟨by simp [acquisitionStatus_eq_ok_iff, ht], _, _, fun none => by rw [none]; rfl, rfl⟩
  · rw [acquire_timerFails ha ht hm] at h; cases h
    exact .inl ⟨by simp [acquisitionStatus_eq_ok_iff, hm], _, _, fun none => by rw [none]; rfl, rfl⟩
  · rw [acquire_succeeds ha ht hm] at h; cases h
    exact .inr ⟨acquisitionStatus_succeeds ha ht hm, _, rfl⟩

/-- What acquisition raises before its response: requests, none of which stops the timer. -/
theorem acquire_outputs {cfg : Cfg} (h : acquire cfg s = .next t) :
    ∃ asked, t.outputs = s.outputs ++ (asked ++ [.response (acquisitionStatus s)]) ∧
      ∀ o ∈ asked, o.isRequest = true ∧ o ≠ .timerStop := by
  rcases acquire_cases s with ha | ⟨ha, e, ht⟩ | ⟨ha, ht, hm⟩ | ⟨ha, ht, hm⟩
  · rw [acquire_allocFails ha] at h; cases h
    exact ⟨[_], by rw [acquisitionStatus_allocFails ha]; rfl, by simp [Output.isRequest]⟩
  · rw [acquire_openFails ha ht] at h; cases h
    exact ⟨[_, _, _], by rw [acquisitionStatus_openFails ha ht]; rfl, by simp [Output.isRequest]⟩
  · rw [acquire_timerFails ha ht hm] at h; cases h
    exact ⟨[_, _, _, _, _], by rw [acquisitionStatus_timerFails ha ht hm]; rfl, by simp [Output.isRequest]⟩
  · rw [acquire_succeeds ha ht hm] at h; cases h
    exact ⟨[_, _, _], by rw [acquisitionStatus_succeeds ha ht hm]; rfl, by simp [Output.isRequest]⟩

/-! ### INIT as a whole -/

/-- INIT ends in one of three shapes: turned away with nothing but the response; failed in acquisition; or with a
context brought to life. The last is the one that answers `Ok`. -/
theorem exec_init_cases (h : exec (.init b d c cb fc len clk) s = .next t) :
    (.response .ok ∉ t.outputs ∧ ∃ st, t = { s with outputs := [.response st] }) ∨
      (.response .ok ∉ t.outputs ∧ s.ctxValid = false ∧ ∃ held outputs, (s.held = Held.none → held = Held.none) ∧
        t = { s with txbuf := Memory.unspecified, held := held, outputs := outputs }) ∨
      (.response .ok ∈ t.outputs ∧ s.ctxValid = false ∧ legalFreqCode fc = true ∧ validate cb fc len clk = none ∧
        ∃ outputs, t = { s with
          ctxValid := true
          sched := .idle
          tickPending := false
          cfg := cfgOf b d c cb fc len clk
          txbuf := s.txbuf.zeroFill (bufLenOf len.toNat)
          held := Held.all
          outputs := outputs }) := by
  have answers_ok : .response .ok ∈ t.outputs ↔ initCheck cb fc len clk s = none ∧ acquisitionStatus s = .ok := by
    rw [exec_init_response_iff h, eq_comm, initStatus_eq_ok_iff]
  rcases exec_init_next h with ⟨st, rejected, ht⟩ | ⟨accepted, acquired⟩
  · exact .inl ⟨by simp [answers_ok, rejected], st, ht⟩
  · obtain ⟨legal, passed, dormant⟩ := initCheck_eq_none.1 accepted
    rcases acquire_next acquired with ⟨failed, held, outputs, hheld, ht⟩ | ⟨succeeded, outputs, ht⟩
    · exact .inr (.inl ⟨fun ok => failed (answers_ok.1 ok).2, dormant, held, outputs, hheld, ht⟩)
    · obtain ⟨-, hmax, -⟩ := validate_eq_none.1 passed
      rw [bufLen, cfgOf_stripLength hmax] at ht
      exact .inr (.inr ⟨answers_ok.2 ⟨accepted, succeeded⟩, dormant, legal, passed, outputs, ht⟩)

/-- What INIT raises: requests, none of which stops the timer and all of them without a context, then one response. -/
theorem exec_init_outputs (h : exec (.init b d c cb fc len clk) s = .next t) :
    ∃ asked st, t.outputs = asked ++ [.response st] ∧
      ∀ o ∈ asked, o.isRequest = true ∧ o ≠ .timerStop ∧ s.ctxValid = false := by
  rcases exec_init_next h with ⟨st, -, rfl⟩ | ⟨accepted, acquired⟩
  · exact ⟨[], st, rfl, by simp⟩
  · obtain ⟨-, -, dormant⟩ := initCheck_eq_none.1 accepted
    obtain ⟨asked, houtputs, hasked⟩ := acquire_outputs acquired
    exact ⟨asked, _, houtputs, fun o ho => ⟨(hasked o ho).1, (hasked o ho).2, dormant⟩⟩

/-- An INIT that no check turns away acquires (40_init.md R130). -/
theorem exec_init_acquires (hfc : legalFreqCode fc = true) (h : validate cb fc len clk = none)
    (hv : s.ctxValid = false) :
    exec (.init b d c cb fc len clk) s = acquire (cfgOf b d c cb fc len clk) s.begin :=
  execInit_accepted (initCheck_eq_none.2 ⟨hfc, h, hv⟩)

end

end Sys2Proof.Machine

open Sys2Proof Sys2Proof.Machine

/-- Settles O11: check 1 decides a bad length, and a good one is answered no `LengthOutOfRange` by any later check. -/
theorem initRejectsBadLength : Obligations.InitRejectsBadLength := by
  intro b d c cb fc len clk s legal
  exact ⟨fun bad => exec_init_of_validate_some legal (validate_badLength bad), fun hmin hmax =>
    exec_init_never_answers legal rfl (validate_ne_lengthOutOfRange hmin hmax)⟩

/-- Settles O15: the rate is monotone, so its bounds are its values at the two ends. -/
theorem requiredRateBounds : Obligations.RequiredRateBounds := by
  refine ⟨fun fc len legal hmin hmax => ?_, by decide, by decide, by decide, by decide⟩
  obtain ⟨low, high⟩ := freqHz_bounds legal
  exact ⟨requiredRate_mono hmin low, requiredRate_mono hmax high⟩

/-- Settles O12: check 2 decides a clock above the ceiling; at or below it no check is left that answers
`InvalidParameter`; and a clock of 0 is below every required rate. -/
theorem initRejectsClockAboveCeiling : Obligations.InitRejectsClockAboveCeiling := by
  intro b d c cb fc len clk s legal hmin hmax
  refine ⟨fun high => ?above, fun low present => ?within, fun zero present => ?zero⟩
  case above => exact exec_init_of_validate_some legal (validate_badClockOrCallback hmin hmax (.inl high))
  case within =>
    subst present
    exact exec_init_never_answers legal rfl (validate_ne_invalidParameter hmin hmax low)
  case zero =>
    subst zero present
    obtain ⟨rate, -⟩ := requiredRateBounds.1 fc len legal hmin hmax
    exact exec_init_of_validate_some legal
      (validate_insufficientRate hmin hmax (by decide) (Nat.lt_of_lt_of_le (by decide) rate))

/-- Settles O13: check 3 decides. -/
theorem initRejectsMissingCallback : Obligations.InitRejectsMissingCallback := by
  intro b d c cb fc len clk s legal hmin hmax _ absent
  exact exec_init_of_validate_some legal (validate_badClockOrCallback hmin hmax (.inr absent))

/-- Settles O17: the live context is the one check that fails. -/
theorem initOnLiveContextIsTurnedAway : Obligations.InitOnLiveContextIsTurnedAway := by
  intro b d c cb fc len clk s legal passed live
  exact execInit_rejected (initCheck_live legal passed live)

/-- Settles O18: the four checks pass, so INIT acquires, and with all answers Ok it ends in the committed state. -/
theorem initBringsContextToLife : Obligations.InitBringsContextToLife := by
  intro b d c fc len clk s f hf hmin hmax hclk hrate dormant ha ht hm
  have freq := freqHz_of_getElem? hf
  have passed : validate 1#1 fc len clk = none :=
    validate_eq_none.2 ⟨hmin, hmax, hclk, rfl, by rwa [requiredRate_eq, freq]⟩
  have length : (cfgOf b d c 1#1 fc len clk).stripLength.toNat = len.toNat := cfgOf_stripLength hmax
  have buffer : bufLen (cfgOf b d c 1#1 fc len clk) = 16 + len.toNat * 8 := by rw [bufLen_eq, length]
  have period : periodUs fc = BitVec.ofNat 20 (1000000 / f) := by rw [periodUs, freq]
  refine ⟨_, (exec_init_acquires (legalFreqCode_of_getElem? hf) passed dormant).trans (acquire_succeeds ha ht hm),
    rfl, rfl, rfl, length, rfl, rfl, rfl, rfl, rfl, rfl, rfl, fun o below => ?_, fun o above => ?_, ?_,
    ⟨rfl, rfl, rfl⟩, ⟨rfl, rfl⟩⟩
  · rw [buffer, Memory.read_zeroFill, if_pos below]
  · rw [buffer, Memory.read_zeroFill, if_neg (Nat.not_lt.2 above), State.begin_txbuf]
  · rw [buffer]
    simp only [State.begin_outputs, List.nil_append, ← period]
    rfl

/-- Settles O20: the three ways acquisition fails, with nothing held before and nothing after. -/
theorem initRollsBackInReverseOrder : Obligations.InitRollsBackInReverseOrder := by
  intro b d c cb fc len clk s legal passed dormant free requests hrequests
  subst hrequests
  obtain ⟨-, hmax, -⟩ := validate_eq_none.1 passed
  have buffer : bufLen (cfgOf b d c cb fc len clk) = 16 + len.toNat * 8 := by rw [bufLen_eq, cfgOf_stripLength hmax]
  have acquires := exec_init_acquires (b := b) (d := d) (c := c) legal passed dormant
  refine ⟨fun ha => ?alloc, fun e ha ht => ?transport, fun ha ht hm => ?timer⟩
  case alloc =>
    refine ⟨_, acquires.trans (acquire_allocFails ha), ?_, ⟨rfl, rfl, rfl⟩, ⟨rfl, rfl⟩, ⟨rfl, rfl, rfl⟩, ⟨rfl, rfl⟩⟩
    rw [buffer]; rfl
  case transport =>
    refine ⟨_, acquires.trans (acquire_openFails ha ht), ?_, ⟨rfl, rfl, ?_⟩, ⟨rfl, rfl⟩, ⟨rfl, rfl, rfl⟩, ⟨rfl, rfl⟩⟩
    · rw [buffer]; rfl
    · simp [free, Held.none]
  case timer =>
    refine ⟨_, acquires.trans (acquire_timerFails ha ht hm), ?_, ⟨rfl, rfl, ?_⟩, ⟨rfl, rfl⟩, ⟨rfl, rfl, rfl⟩,
      ⟨rfl, rfl⟩⟩
    · rw [buffer]; rfl
    · simp [free, Held.none]

/-- Settles O21, by the three shapes in which INIT ends. -/
theorem initFrame : Obligations.InitFrame := by
  intro b d c cb fc len clk s t done
  rcases exec_init_cases done with ⟨not_ok, st, rfl⟩ | ⟨not_ok, dormant, held, outputs, -, rfl⟩ |
    ⟨ok, dormant, -, -, outputs, rfl⟩
  · exact ⟨⟨rfl, rfl, rfl⟩, ⟨rfl, rfl⟩, fun _ => ⟨⟨rfl, rfl, rfl⟩, ⟨rfl, rfl⟩, fun _ => rfl⟩,
      fun _ => ⟨rfl, rfl, rfl, rfl⟩, fun ok => absurd ok not_ok⟩
  · exact ⟨⟨rfl, rfl, rfl⟩, ⟨rfl, rfl⟩, fun live => absurd live (by simp [dormant]),
      fun _ => ⟨rfl, rfl, rfl, rfl⟩, fun ok => absurd ok not_ok⟩
  · refine ⟨⟨rfl, rfl, rfl⟩, ⟨rfl, rfl⟩, fun live => absurd live (by simp [dormant]),
      fun not_ok => absurd ok not_ok, fun _ o above => ?_⟩
    rw [Memory.read_zeroFill, bufLenOf_eq, if_neg (Nat.not_lt.2 above)]

end

section
/-! PROOF. What SET_PIXEL changes and what it looks at (41_set_pixel.md sections 1 to 3; 70_reset_and_hazards.md R270).
The one idea: its check reads only the context and the index, and TXBUF after it reads as before but for the 8 bytes of
a pixel that passed the check. -/

namespace Sys2Proof.Machine

/-! ### The bytes of a frame by field -/

/-- The two bytes of a 16-bit field. -/
theorem extractLsb'_high_byte (v : Desc) (b : Nat) :
    v.extractLsb' (b + 8) 8 = ((v.extractLsb' b 16) >>> 8).setWidth 8 := by
  ext i hi
  have below : 8 + i < 16 := by omega
  simp [Nat.add_assoc, below]

theorem extractLsb'_low_byte (v : Desc) (b : Nat) : v.extractLsb' b 8 = (v.extractLsb' b 16).setWidth 8 := by
  ext i hi
  have below : i < 16 := by omega
  simp [below]

/-- The first byte holds the start bit, the red level and the upper two bits of the green one (41_set_pixel.md R151). -/
theorem forceStart_first_byte (desc : Desc) :
    (forceStart desc).extractLsb' 56 8 =
      0x80#8 ||| ((desc.extractLsb' 58 5).setWidth 8 <<< 2) ||| ((desc.extractLsb' 53 5).setWidth 8 >>> 3) := by
  ext i hi
  rw [BitVec.getElem_extractLsb', getLsbD_forceStart]
  interval_cases i <;> simp

/-- The second byte holds the rest of the green level and the blue one (41_set_pixel.md R151). -/
theorem forceStart_second_byte (desc : Desc) :
    (forceStart desc).extractLsb' 48 8 =
      (((desc.extractLsb' 53 5).setWidth 8 &&& 7#8) <<< 5) ||| (desc.extractLsb' 48 5).setWidth 8 := by
  ext i hi
  rw [BitVec.getElem_extractLsb', getLsbD_forceStart]
  interval_cases i <;> simp

/-! ### The payload under a store -/

section
variable {s : State} {a o k : Nat} {bs : List Byte}

theorem State.read_store_payload_outside (h : o < a ∨ a + bs.length ≤ o) :
    (s.store a bs).payload.read o = s.payload.read o := by
  by_cases hs : s.sched = .transmitting
  · rw [State.store_payload_transmitting _ a bs hs, Memory.read_race, if_neg (by omega)]
  · rw [State.store_payload_quiet _ a bs hs]

/-- A byte of the payload under a store stays old or is the stored one (70_reset_and_hazards.md R270). -/
theorem State.read_store_payload_inside {old : Byte} (hk : k < bs.length) (h : s.payload.read (a + k) = some old) :
    (s.store a bs).payload.read (a + k) = some old ∨ (s.store a bs).payload.read (a + k) = bs[k]? := by
  by_cases hs : s.sched = .transmitting
  · rw [State.store_payload_transmitting _ a bs hs, Memory.read_race]
    split
    · right
      rw [h, Option.map_some, Nat.add_sub_cancel_left, List.getD_eq_getElem _ _ hk, List.getElem?_eq_getElem hk]
    · exact .inl h
  · exact .inl (by rw [State.store_payload_quiet _ a bs hs, h])

end

/-! ### SET_PIXEL -/

section
variable {index : BitVec 32} {desc : Desc} {s t : State}

/-- The check looks only at the context's validity and the configuration (41_set_pixel.md R158). -/
theorem pixelCheck_congr {s' : State} (hv : s'.ctxValid = s.ctxValid) (hc : s'.cfg = s.cfg) :
    pixelCheck index s' = pixelCheck index s := by
  rw [pixelCheck, pixelCheck, hv, hc]

theorem exec_setPixel_context (h : exec (.setPixel index desc) s = .next t) :
    SameContext s t ∧ SameScheduler s t ∧ SameInputs s t := by
  rcases execSetPixel_next h with ⟨st, -, rfl⟩ | ⟨-, -, rfl⟩
  · exact ⟨⟨rfl, rfl, rfl⟩, ⟨rfl, rfl⟩, rfl, rfl, rfl⟩
  · simp [SameContext, SameScheduler, SameInputs]

/-- So no SET_PIXEL changes what a check says. -/
theorem pixelCheck_after_setPixel {other : BitVec 32} (h : exec (.setPixel index desc) s = .next t) :
    pixelCheck other t = pixelCheck other s := by
  obtain ⟨⟨valid, cfg, -⟩, -⟩ := exec_setPixel_context h
  exact pixelCheck_congr valid cfg

/-- TXBUF after SET_PIXEL, at every offset and in every form (41_set_pixel.md R152 to R154). -/
theorem exec_setPixel_txbuf (h : exec (.setPixel index desc) s = .next t) (o : Nat) :
    t.txbuf.read o =
      if pixelCheck index s = none ∧ pixelOffset index ≤ o ∧ o < pixelOffset index + 8 then
        (encodeFrame desc)[o - pixelOffset index]?
      else s.txbuf.read o := by
  rcases execSetPixel_next h with ⟨st, rejected, rfl⟩ | ⟨accepted, -, rfl⟩
  · simp [rejected]
  · simp [accepted, Memory.read_writeBytes]

/-- The frames of two pixels do not overlap. -/
theorem pixelOffset_disjoint {i j : BitVec 32} (h : i ≠ j) :
    pixelOffset i + 8 ≤ pixelOffset j ∨ pixelOffset j + 8 ≤ pixelOffset i := by
  have apart : i.toNat ≠ j.toNat := fun e => h (BitVec.eq_of_toNat_eq e)
  rw [pixelOffset_eq, pixelOffset_eq]
  omega

end

end Sys2Proof.Machine

open Sys2Proof Sys2Proof.Machine

/-- Settles O24: the context check comes first. -/
theorem setPixelNeedsContext : Obligations.SetPixelNeedsContext := by
  intro index desc s dormant
  exact execSetPixel_rejected (pixelCheck_noContext dormant)

/-- Settles O25, by the two forms: turned away, or a store at the pixel's offset. -/
theorem setPixelFrame : Obligations.SetPixelFrame := by
  intro index desc s t done
  obtain ⟨context, scheduler, inputs⟩ := exec_setPixel_context done
  refine ⟨context, scheduler, inputs, fun a at_a o outside => ?buffer, fun a at_a o outside => ?payload,
    fun nowhere => ?nothing⟩
  case buffer =>
    obtain ⟨-, rfl⟩ := storeOffset_eq_some.1 at_a
    rw [exec_setPixel_txbuf done, if_neg (by omega)]
  case payload =>
    obtain ⟨accepted, rfl⟩ := storeOffset_eq_some.1 at_a
    rcases execSetPixel_next done with ⟨st, rejected, rfl⟩ | ⟨-, -, rfl⟩
    · rfl
    · exact State.read_store_payload_outside (by rwa [encodeFrame_length])
  case nothing =>
    rcases execSetPixel_next done with ⟨st, -, rfl⟩ | ⟨accepted, -, -⟩
    · exact ⟨fun _ => rfl, rfl, rfl⟩
    · exact absurd (nowhere.symm.trans (storeOffset_eq_some.2 ⟨accepted, rfl⟩)) (by simp)

/-- Settles O27: the bytes are cut from the number stored; the colour bytes lie inside one 16-bit field each, and the
first two hold the current levels across the byte boundary. -/
theorem frameBytesByField : Obligations.FrameBytesByField := by
  intro desc
  have bytes : encodeFrame desc =
      [(forceStart desc).extractLsb' 56 8, (forceStart desc).extractLsb' 48 8,
        (forceStart desc).extractLsb' 40 8, (forceStart desc).extractLsb' 32 8,
        (forceStart desc).extractLsb' 24 8, (forceStart desc).extractLsb' 16 8,
        (forceStart desc).extractLsb' 8 8, (forceStart desc).extractLsb' 0 8] := rfl
  rw [bytes, forceStart_first_byte, forceStart_second_byte]
  simp (disch := decide) only [extractLsb'_forceStart]
  rw [extractLsb'_high_byte desc 32, extractLsb'_low_byte desc 32, extractLsb'_high_byte desc 16,
    extractLsb'_low_byte desc 16, extractLsb'_high_byte desc 0, extractLsb'_low_byte desc 0]
  rfl

/-- Settles O30: no SET_PIXEL changes what another's check says, so TXBUF after two of them is read off the two sets of
bytes, which are the same for one pixel and disjoint for two. -/
theorem setPixelOverwrites : Obligations.SetPixelOverwrites := by
  intro i j d e s
  refine ⟨fun t u first again o => ?twice, fun t u v first later alone o => ?later,
    fun t u v w apart first second second' first' o => ?commute⟩
  case twice =>
    rw [exec_setPixel_txbuf again, pixelCheck_after_setPixel first, exec_setPixel_txbuf first]
    split_ifs <;> rfl
  case later =>
    rw [exec_setPixel_txbuf later, pixelCheck_after_setPixel first, exec_setPixel_txbuf alone,
      exec_setPixel_txbuf first]
    split_ifs <;> rfl
  case commute =>
    have disjoint := pixelOffset_disjoint apart
    rw [exec_setPixel_txbuf second, pixelCheck_after_setPixel first, exec_setPixel_txbuf first,
      exec_setPixel_txbuf first', pixelCheck_after_setPixel second', exec_setPixel_txbuf second']
    split_ifs
    · omega
    all_goals rfl

/-- Settles O31: the store as always, and the payload byte by byte. -/
theorem setPixelRacesTransferInFlight : Obligations.SetPixelRacesTransferInFlight := by
  intro index desc s hv hs hi hlen
  have done := exec_setPixel_stores (desc := desc) hv hi hlen
  have accepted : pixelCheck index s = none := pixelCheck_eq_none.2 ⟨hv, hi⟩
  have offset : pixelOffset index = 16 + 8 * index.toNat := by rw [pixelOffset_eq, Nat.mul_comm]
  rw [offset] at done
  refine ⟨_, done, by simp, by simpa using hs, fun k hk => ?_, fun k old hk reads => ?_, fun o outside => ?_⟩
  · rw [State.emit_txbuf, State.store_txbuf]
    exact Memory.read_writeBytes_inside _ _ _ _ (by rwa [encodeFrame_length])
  · exact State.read_store_payload_inside (s := s.begin) (by rwa [encodeFrame_length]) reads
  · exact State.read_store_payload_outside (s := s.begin) (by rw [encodeFrame_length]; omega)

/-- Settles O32: the check gives the same status in both states, and the store writes the same bytes. -/
theorem setPixelIsBlindToScheduler : Obligations.SetPixelIsBlindToScheduler := by
  intro index desc s s' t hv hc hb done
  have check : pixelCheck index s' = pixelCheck index s := pixelCheck_congr hv hc
  rcases execSetPixel_next done with ⟨st, rejected, rfl⟩ | ⟨accepted, fits, rfl⟩
  · exact ⟨_, execSetPixel_rejected (check.trans rejected), rfl, hb, rfl⟩
  · exact ⟨_, execSetPixel_stores (check.trans accepted) fits, by simp, by simp [hb], by simp⟩

end

section
/-! PROOF. The LED-frame transmitter (42_scheduler.md sections 1 and 2; 20_memory.md section 6). The one idea: a
transfer is submitted only by TICK in Idle and by CB_RET with a tick pending, and its payload is then the buffer below
its length; the rest is what the sequencer lets happen before and after. -/

namespace Sys2Proof.Machine

section
variable {i : Instr} {s t u v : State}

/-! ### Submit -/

theorem exec_setPixel_outputs {index : BitVec 32} {desc : Desc} (h : exec (.setPixel index desc) s = .next t) :
    ∃ st, t.outputs = [.response st] := by
  rcases execSetPixel_next h with ⟨st, -, rfl⟩ | ⟨-, -, rfl⟩
  · exact ⟨st, rfl⟩
  · exact ⟨.ok, by simp⟩

/-- CB_RET with a tick pending, for a strip whose buffer exists: the whole next state (92_eei_decisions.md D11). -/
theorem exec_cbRet_submits (hv : s.ctxValid = true) (hs : s.sched = .callback) (hp : s.tickPending = true)
    (hlen : s.cfg.stripLength.toNat ≤ 1024) :
    exec .cbRet s =
      .next { s with
        tickPending := false
        sched := .transmitting
        payload := s.txbuf.upTo (bufLen s.cfg)
        outputs := [.txSubmit (BitVec.ofNat 14 (bufLen s.cfg))] } :=
  (execCbRet_pending hv hs hp).trans (submit_eq (s := { s.begin with tickPending := false }) (bufLen_le_capacity hlen))

/-- What submits a transfer, from which state, and what it submits (42_scheduler.md R171, R179). -/
theorem exec_submits {len : BitVec 14} (h : exec i s = .next t) (hsub : .txSubmit len ∈ t.outputs) :
    s.ctxValid = true ∧ s.sched ≠ .transmitting ∧ len = BitVec.ofNat 14 (bufLen s.cfg) ∧
      t.payload = s.txbuf.upTo (bufLen s.cfg) := by
  cases i with
  | init =>
    obtain ⟨asked, st, houtputs, hasked⟩ := exec_init_outputs h
    have among : .txSubmit len ∈ asked := by simpa [houtputs] using hsub
    exact absurd (hasked _ among).1 (by simp [Output.isRequest])
  | setPixel =>
    obtain ⟨st, houtputs⟩ := exec_setPixel_outputs h
    simp [houtputs] at hsub
  | tick =>
    rcases exec_tick_next h with ⟨-, rfl⟩ | ⟨hv, hs, -, rfl⟩ | ⟨-, -, rfl⟩
    · simp at hsub
    · exact ⟨hv, by simp [hs], by simpa using hsub, rfl⟩
    · simp at hsub
  | txDone => rcases exec_txDone_next h with ⟨-, rfl⟩ | ⟨-, -, rfl⟩ <;> simp at hsub
  | cbRet =>
    rcases exec_cbRet_next h with ⟨-, rfl⟩ | ⟨-, -, -, rfl⟩ | ⟨hv, hs, -, -, rfl⟩
    · simp at hsub
    · simp at hsub
    · exact ⟨hv, by simp [hs], by simpa using hsub, rfl⟩
  | rst => cases h; simp at hsub

/-! ### A transfer in flight -/

/-- No operation but TX_DONE and RST takes the sequencer out of Transmitting, and none submits there
(70_reset_and_hazards.md R273). -/
theorem exec_stays_transmitting (h : exec i s = .next t) (hi : leavesTransmitting i = false) (hv : s.ctxValid = true)
    (hs : s.sched = .transmitting) :
    t.ctxValid = true ∧ t.sched = .transmitting ∧ t.cfg = s.cfg ∧ ∀ len, .txSubmit len ∉ t.outputs := by
  have no_submit (len : BitVec 14) (submitted : .txSubmit len ∈ t.outputs) : False := (exec_submits h submitted).2.1 hs
  by_cases pixel : ∃ index desc, i = .setPixel index desc
  · obtain ⟨index, desc, rfl⟩ := pixel
    obtain ⟨⟨valid, cfg, -⟩, ⟨sched, -⟩, -⟩ := exec_setPixel_context h
    exact ⟨valid.trans hv, sched.trans hs, cfg, no_submit⟩
  · obtain ⟨pending, outputs, rfl⟩ := exec_transmitting_next h hv hs
      ⟨hi, fun index desc e => absurd ⟨index, desc, e⟩ pixel⟩
    exact ⟨hv, hs, rfl, no_submit⟩

/-- From Submit to TX_DONE, with no store in between, the payload is the submitted one (42_scheduler.md R182). -/
theorem payload_at_txDone {ops : List Instr} {e : BitVec 1} (run : execAll ops s = .next t)
    (ends : exec (.txDone e) t = .next u) (hv : s.ctxValid = true) (hs : s.sched = .transmitting)
    (hops : ∀ i ∈ ops, LeavesTransferAlone s.cfg.stripLength.toNat i) : u.payload = s.payload := by
  have ended := exec_txDone_payload ends
  obtain ⟨_, _, rfl⟩ := execAll_transmitting_next run hv hs hops
  exact ended

/-! ### The callback window -/

/-- Any number of ticks in the callback window leave one pending bit (92_eei_decisions.md D11). -/
theorem execAll_ticks_in_callback (n : Nat) (ops : List Instr) (hv : s.ctxValid = true) (hs : s.sched = .callback) :
    execAll (List.replicate (n + 1) .tick ++ ops) s = execAll ops { s with tickPending := true, outputs := [] } := by
  have held {r : State} (hv : r.ctxValid = true) (hs : r.sched = .callback) :
      exec .tick r = .next { r with tickPending := true, outputs := [] } := execTick_busy hv (by simp [hs])
  induction n generalizing s with
  | zero => exact execAll_cons ops (held hv hs)
  | succ n ih => exact (execAll_cons _ (held hv hs)).trans (ih hv hs)

theorem execAll_singleton (i : Instr) (s : State) : execAll [i] s = exec i s := by
  cases h : exec i s <;> simp [execAll, h]

/-- The store side of a run of SET_PIXELs to other pixels: context, scheduler and the 8 bytes of this pixel stay. -/
theorem execAll_other_pixels {index : BitVec 32} {ops : List Instr}
    (hops : ∀ i ∈ ops, ∃ j d, i = .setPixel j d ∧ j ≠ index) (run : execAll ops s = .next t) :
    SameContext s t ∧ SameScheduler s t ∧
      ∀ k, k < 8 → t.txbuf.read (pixelOffset index + k) = s.txbuf.read (pixelOffset index + k) := by
  induction ops generalizing s with
  | nil => cases run; exact ⟨⟨rfl, rfl, rfl⟩, ⟨rfl, rfl⟩, fun _ _ => rfl⟩
  | cons i ops ih =>
    rw [List.forall_mem_cons] at hops
    obtain ⟨⟨j, d, rfl, other⟩, hrest⟩ := hops
    obtain ⟨r, first, rest⟩ := execAll_cons_next run
    obtain ⟨⟨valid, cfg, held⟩, ⟨sched, pending⟩, -⟩ := exec_setPixel_context first
    obtain ⟨⟨valid', cfg', held'⟩, ⟨sched', pending'⟩, bytes⟩ := ih hrest rest
    refine ⟨⟨valid'.trans valid, cfg'.trans cfg, held'.trans held⟩, ⟨sched'.trans sched, pending'.trans pending⟩,
      fun k hk => ?_⟩
    have disjoint := pixelOffset_disjoint other
    rw [bytes k hk, exec_setPixel_txbuf first, if_neg (by omega)]

end

end Sys2Proof.Machine

open Sys2Proof Sys2Proof.Machine

/-- Settles O34: outside Idle the tick is held. -/
theorem tickOutsideIdleIsHeld : Obligations.TickOutsideIdleIsHeld := by
  intro s hv hs
  exact execTick_busy hv hs

/-- Settles O35: `tx_err` has no part in the meaning. -/
theorem txDoneInvokesCallback : Obligations.TxDoneInvokesCallback :=
  ⟨fun e _ hv hs => execTxDone_transmitting e hv hs, fun _ _ _ => rfl⟩

/-- Settles O36: nothing is left to serve. -/
theorem callbackReturnGoesToIdle : Obligations.CallbackReturnGoesToIdle := by
  intro s hv hs hp
  exact execCbRet_idle hv hs hp

/-- Settles O37: the next state is Submit's. -/
theorem callbackReturnServesPendingTick : Obligations.CallbackReturnServesPendingTick := by
  intro s hv hs hp hlen
  exact ⟨_, exec_cbRet_submits hv hs hp hlen, rfl, rfl, rfl, fun o below => Memory.read_upTo_of_lt _ below, rfl, rfl,
    ⟨rfl, rfl, rfl⟩, rfl, rfl, rfl⟩

/-- Settles O38: each event without a context, and the two that expect a state, outside it. -/
theorem unexpectedEventsAreIgnored : Obligations.UnexpectedEventsAreIgnored := by
  intro e s
  exact ⟨execTick_noContext, execTxDone_ignored e, execCbRet_ignored⟩

/-- Settles O39, by the next states each event can answer. -/
theorem eventFrame : Obligations.EventFrame := by
  intro e i s t event done
  rcases event with rfl | rfl | rfl
  · rcases exec_tick_next done with ⟨-, rfl⟩ | ⟨-, -, -, rfl⟩ | ⟨-, -, rfl⟩
    · exact ⟨⟨rfl, rfl, rfl⟩, ⟨rfl, rfl, rfl⟩, rfl, rfl, .inl rfl⟩
    · exact ⟨⟨rfl, rfl, rfl⟩, ⟨rfl, rfl, rfl⟩, rfl, rfl, .inr (List.mem_singleton.2 rfl)⟩
    · exact ⟨⟨rfl, rfl, rfl⟩, ⟨rfl, rfl, rfl⟩, rfl, rfl, .inl rfl⟩
  · rcases exec_txDone_next done with ⟨-, rfl⟩ | ⟨-, -, rfl⟩ <;>
      exact ⟨⟨rfl, rfl, rfl⟩, ⟨rfl, rfl, rfl⟩, rfl, rfl, .inl rfl⟩
  · rcases exec_cbRet_next done with ⟨-, rfl⟩ | ⟨-, -, -, rfl⟩ | ⟨-, -, -, -, rfl⟩
    · exact ⟨⟨rfl, rfl, rfl⟩, ⟨rfl, rfl, rfl⟩, rfl, rfl, .inl rfl⟩
    · exact ⟨⟨rfl, rfl, rfl⟩, ⟨rfl, rfl, rfl⟩, rfl, rfl, .inl rfl⟩
    · exact ⟨⟨rfl, rfl, rfl⟩, ⟨rfl, rfl, rfl⟩, rfl, rfl, .inr (List.mem_singleton.2 rfl)⟩

/-- Settles O40, by induction on the operations: each stays in Transmitting and submits nothing. -/
theorem transmittingWaitsForTxDone : Obligations.TransmittingWaitsForTxDone := by
  intro ops
  induction ops with
  | nil =>
    intro s t _ hv hs run
    cases run
    exact ⟨hv, hs, rfl, fun nonempty => absurd rfl nonempty⟩
  | cons i ops ih =>
    intro s t hops hv hs run
    rw [List.forall_mem_cons] at hops
    obtain ⟨r, first, rest⟩ := execAll_cons_next run
    obtain ⟨valid, sched, cfg, no_submit⟩ := exec_stays_transmitting first hops.1 hv hs
    obtain ⟨valid', sched', cfg', no_submit'⟩ := ih r t hops.2 valid sched rest
    refine ⟨valid', sched', cfg'.trans cfg, fun _ => ?_⟩
    by_cases last : ops = []
    · subst last; cases rest; exact no_submit
    · exact no_submit' last

/-- Settles O57: such an operation changes at most the pending tick and the outputs. -/
theorem payloadStaysUntilStored : Obligations.PayloadStaysUntilStored := by
  intro i s t stays beyond hv hs done
  obtain ⟨_, _, rfl⟩ := exec_transmitting_next done hv hs ⟨stays, beyond⟩
  exact ⟨rfl, rfl, hs, hv, rfl⟩

/-- Settles O58: the payload at TX_DONE is the one CB_RET submitted, the buffer below its length, whose preamble the
invariant says is zero. -/
theorem payloadIsBufferAtPendingTick : Obligations.PayloadIsBufferAtPendingTick := by
  intro ops e s t u v inv hv hs hp cbRet hops run ends
  obtain ⟨⟨_, hlen, _⟩, _, ⟨_, preamble, _⟩, _⟩ := inv.1 hv
  rw [exec_cbRet_submits hv hs hp hlen] at cbRet
  cases cbRet
  have submitted : v.payload = s.txbuf.upTo (bufLen s.cfg) := payload_at_txDone run ends hv rfl hops
  have below (o : Nat) (ho : o < bufLen s.cfg) : v.payload.read o = s.txbuf.read o := by
    rw [submitted, Memory.read_upTo_of_lt _ ho]
  have above (o : Nat) (ho : bufLen s.cfg ≤ o) : v.payload.read o = none := by
    rw [submitted, Memory.read_upTo_of_le _ ho]
  exact ⟨below, above, fun o ho => (below o (Nat.lt_add_right _ ho)).trans (preamble o ho)⟩

/-- Settles O42: what is submitted is the buffer, which the invariant says is framed, and its length fits 14 bits. -/
theorem submittedPayloadIsFramed : Obligations.SubmittedPayloadIsFramed := by
  intro i s t len inv done submitted
  obtain ⟨hv, -, rfl, payload⟩ := exec_submits done submitted
  obtain ⟨⟨_, hlen, _⟩, _, framed, _⟩ := inv.1 hv
  have small : bufLen s.cfg < 2 ^ 14 := Nat.lt_of_le_of_lt (bufLen_le_capacity hlen) (by decide)
  have whole : s.txbuf.upTo (bufLen s.cfg) = s.txbuf := Memory.upTo_covers _ _ framed.1
  rw [payload, whole, BitVec.toNat_ofNat, Nat.mod_eq_of_lt small]
  exact ⟨bufLen_eq s.cfg, framed⟩

/-- Settles O43: the pixel's bytes are in TXBUF at the CB_RET, and both CB_RET with a tick pending and the next TICK
read all of TXBUF. -/
theorem callbackPixelsReachNextTransfer : Obligations.CallbackPixelsReachNextTransfer := by
  intro index desc ops s t hv hs hi hlen hops run
  obtain ⟨q, stores, cbRet⟩ := execAll_append_next run
  obtain ⟨p, first, others⟩ := execAll_cons_next stores
  obtain ⟨⟨valid', cfg', -⟩, ⟨sched', pending'⟩, -⟩ := exec_setPixel_context first
  obtain ⟨⟨valid, cfg, -⟩, ⟨sched, pending⟩, bytes⟩ := execAll_other_pixels hops others
  replace valid := (valid.trans valid').trans hv
  replace sched := (sched.trans sched').trans hs
  replace pending := pending.trans pending'
  replace cfg := cfg.trans cfg'
  have offset : pixelOffset index = 16 + 8 * index.toNat := by rw [pixelOffset_eq, Nat.mul_comm]
  have fits : q.cfg.stripLength.toNat ≤ 1024 := by rwa [cfg]
  have accepted : pixelCheck index s = none := pixelCheck_eq_none.2 ⟨hv, hi⟩
  have sent (k : Nat) (hk : k < 8) :
      (q.txbuf.upTo (bufLen q.cfg)).read (16 + 8 * index.toNat + k) = (encodeFrame desc)[k]? := by
    rw [Memory.read_upTo_of_lt _ (by rw [bufLen_eq, cfg]; omega), ← offset, bytes k hk, exec_setPixel_txbuf first,
      if_pos ⟨accepted, by omega, by omega⟩, Nat.add_sub_cancel_left]
  rw [execAll_singleton] at cbRet
  refine ⟨fun held => ?_, fun none => ?_⟩
  · rw [exec_cbRet_submits valid sched (pending.trans held) fits] at cbRet
    cases cbRet
    exact ⟨rfl, sent⟩
  · rw [exec_cbRet, execCbRet_idle valid sched (pending.trans none)] at cbRet
    cases cbRet
    exact ⟨rfl, _, exec_tick_submits valid rfl fits, rfl, sent⟩

/-- Settles O44: the ticks leave one pending bit, which CB_RET serves. -/
theorem overrunTicksCoalesce : Obligations.OverrunTicksCoalesce := by
  intro n s hv hs hlen
  have served := exec_cbRet_submits (s := { s with tickPending := true, outputs := [] }) hv hs rfl hlen
  exact ⟨_, (execAll_ticks_in_callback n [.cbRet] hv hs).trans ((execAll_singleton _ _).trans served), rfl, rfl, rfl⟩

end

section
/-! PROOF. The invariant (10_state.md section 5; 00_scope.md section 8). The one idea: a store keeps a framed buffer
framed, since it writes one whole frame with its start bit up; every other operation of a live context changes neither
buffer nor configuration, and INIT makes both from nothing. -/

namespace Sys2Proof.Machine

/-! ### Framed buffers -/

/-- What INIT makes of an empty TXBUF is framed: no pixel was ever written (92_eei_decisions.md D15). -/
theorem framed_zeroFill (n : Nat) : Framed n (Memory.unspecified.zeroFill (bufLenOf n)) := by
  have zero {o : Nat} (h : o < 16 + n * 8) : (Memory.unspecified.zeroFill (bufLenOf n)).read o = some 0#8 := by
    rw [Memory.read_zeroFill, bufLenOf_eq, if_pos h]
  refine ⟨Memory.zeroFill_unspecified_covers _, fun o ho => zero ?_, fun i hi => .inl fun k hk => zero ?_⟩ <;>
    simp only [Config.leadingZeroBytes, Config.frameBytes] at * <;> omega

/-- A stored frame has its start bit up (41_set_pixel.md R155). -/
theorem frameStarted_writeBytes (m : Memory) (a : Nat) (desc : Desc) :
    FrameStarted (m.writeBytes a (encodeFrame desc)) a := by
  have first : (m.writeBytes a (encodeFrame desc)).read a = (encodeFrame desc)[0]? :=
    Memory.read_writeBytes_inside _ _ _ 0 (by simp)
  have start := encodeFrame_bit desc (show 63 < 64 by decide)
  rw [getLsbD_forceStart_63, Option.map_eq_some_iff] at start
  obtain ⟨b, byte, bit⟩ := start
  rw [FrameStarted, first, byte]
  exact bit

/-- A store of one pixel's frame keeps the buffer framed. -/
theorem framed_writeBytes {n i : Nat} {m : Memory} (desc : Desc) (hi : i < n) (h : Framed n m) :
    Framed n (m.writeBytes (16 + i * 8) (encodeFrame desc)) := by
  obtain ⟨covers, preamble, frames⟩ := h
  have outside (o : Nat) (ho : o < 16 + i * 8 ∨ 16 + i * 8 + 8 ≤ o) :
      (m.writeBytes (16 + i * 8) (encodeFrame desc)).read o = m.read o :=
    Memory.read_writeBytes_outside _ _ _ _ (by rwa [encodeFrame_length])
  refine ⟨Memory.writeBytes_covers _ _ _ _ covers (by rw [encodeFrame_length, bufLenOf_eq]; omega), ?_, ?_⟩
  · intro o ho
    rw [outside o (by rw [Config.leadingZeroBytes] at ho; omega)]
    exact preamble o ho
  · intro j hj
    by_cases same : j = i
    · subst same
      exact .inr (frameStarted_writeBytes m _ desc)
    · have other (k : Nat) (hk : k < 8) :
          (m.writeBytes (16 + i * 8) (encodeFrame desc)).read (16 + j * 8 + k) = m.read (16 + j * 8 + k) :=
        outside _ (by omega)
      refine (frames j hj).imp (fun zero k hk => (other k hk).trans (zero k hk)) fun started => ?_
      have first : (m.writeBytes (16 + i * 8) (encodeFrame desc)).read (16 + j * 8) = m.read (16 + j * 8) :=
        other 0 (by decide)
      rw [FrameStarted, Config.leadingZeroBytes, Config.frameBytes, first]
      exact started

/-! ### The invariant, operation by operation -/

section
variable {s t : State}

/-- The memory has room for the strip of a live context (10_state.md R36.1). -/
theorem Invariant.strip_le (inv : Invariant s) (hv : s.ctxValid = true) : s.cfg.stripLength.toNat ≤ 1024 := by
  obtain ⟨⟨-, hlen, -⟩, -⟩ := inv.1 hv
  exact hlen

/-- A context makes an invariant state of a live one. -/
theorem Invariant.of_live (hv : t.ctxValid = true) (live : Live t) (quiet : t.sched = .idle → t.tickPending = false) :
    Invariant t :=
  ⟨fun _ => live, fun dormant => absurd dormant (by simp [hv]), quiet⟩

theorem Invariant.of_dormant (hv : t.ctxValid = false) (dormant : Dormant t) (quiet : t.tickPending = false) :
    Invariant t :=
  ⟨fun live => absurd live (by simp [hv]), fun _ => dormant, fun _ => quiet⟩

/-- The configuration that passed the validator is valid (10_state.md R23). -/
theorem validCfg_cfgOf {b d c : BitVec 8} {cb : BitVec 1} {fc : BitVec 4} {len : BitVec 16} {clk : BitVec 32}
    (legal : legalFreqCode fc = true) (passed : validate cb fc len clk = none) :
    ValidCfg (cfgOf b d c cb fc len clk) := by
  obtain ⟨hmin, hmax, hclk, hcb, hrate⟩ := validate_eq_none.1 passed
  rw [ValidCfg, cfgOf_stripLength hmax]
  exact ⟨hmin, hmax, hclk, legal, hcb, hrate⟩

/-- Submit hands over the whole buffer, which is framed. -/
theorem live_submit {pending : Bool} {outputs : List Output} (live : Live s) :
    Live { s with
      tickPending := pending
      sched := .transmitting
      payload := s.txbuf.upTo (bufLen s.cfg)
      outputs := outputs } := by
  obtain ⟨cfg, held, framed, -⟩ := live
  have whole : s.txbuf.upTo (bufLen s.cfg) = s.txbuf := Memory.upTo_covers _ _ framed.1
  refine ⟨cfg, held, framed, fun _ => ?_⟩
  show Covers _ (s.txbuf.upTo (bufLen s.cfg)) ∧ PreambleZero (s.txbuf.upTo (bufLen s.cfg))
  rw [whole]
  exact ⟨framed.1, framed.2.1⟩

/-- A store keeps a live state live, whatever a transfer in flight makes of it (70_reset_and_hazards.md R270). -/
theorem live_store {index : BitVec 32} (desc : Desc) (hi : index.toNat < s.cfg.stripLength.toNat) (live : Live s) :
    Live (s.store (pixelOffset index) (encodeFrame desc)) := by
  obtain ⟨cfg, held, framed, inFlight⟩ := live
  refine ⟨by simpa using cfg, by simpa using held, ?_, fun busy => ?_⟩
  · rw [State.store_cfg, State.store_txbuf, pixelOffset_eq]
    exact framed_writeBytes desc hi framed
  · rw [State.store_sched] at busy
    obtain ⟨covers, preamble⟩ := inFlight busy
    rw [State.store_cfg]
    refine ⟨?_, fun o ho => ?_⟩
    · by_cases hs : s.sched = .transmitting
      · rw [State.store_payload_transmitting _ _ _ hs, Covers, Memory.race_offsets]
        exact covers
      · rw [State.store_payload_quiet _ _ _ hs]
        exact covers
    · rw [State.read_store_payload_outside (by rw [pixelOffset_eq]; rw [Config.leadingZeroBytes] at ho; omega)]
      exact preamble o ho

/-- Every operation keeps the invariant. -/
theorem exec_keeps_invariant {i : Instr} (inv : Invariant s) (h : exec i s = .next t) : Invariant t := by
  obtain ⟨live, dormant, quiet⟩ := inv
  cases i with
  | init =>
    rcases exec_init_cases h with ⟨-, st, rfl⟩ | ⟨-, hv, held, outputs, hheld, rfl⟩ |
      ⟨-, hv, legal, passed, outputs, rfl⟩
    · exact ⟨live, dormant, quiet⟩
    · obtain ⟨idle, free, -⟩ := dormant hv
      exact .of_dormant hv ⟨idle, hheld free, rfl⟩ (quiet idle)
    · obtain ⟨-, -, empty⟩ := dormant hv
      obtain ⟨-, hmax, -⟩ := validate_eq_none.1 passed
      refine .of_live rfl ⟨validCfg_cfgOf legal passed, rfl, ?_, fun busy => absurd rfl busy⟩ fun _ => rfl
      rw [empty, cfgOf_stripLength hmax]
      exact framed_zeroFill _
  | setPixel index desc =>
    rcases execSetPixel_next h with ⟨st, -, rfl⟩ | ⟨accepted, -, rfl⟩
    · exact ⟨live, dormant, quiet⟩
    · obtain ⟨hv, hi⟩ := pixelCheck_eq_none.1 accepted
      exact .of_live (by simpa using hv) (live_store (s := s.begin) desc hi (live hv)) (by simpa using quiet)
  | tick =>
    rcases exec_tick_next h with ⟨-, rfl⟩ | ⟨hv, -, -, rfl⟩ | ⟨hv, busy, rfl⟩
    · exact ⟨live, dormant, quiet⟩
    · exact .of_live hv (live_submit (live hv)) nofun
    · exact .of_live hv (live hv) fun idle => absurd idle busy
  | txDone =>
    rcases exec_txDone_next h with ⟨-, rfl⟩ | ⟨hv, hs, rfl⟩
    · exact ⟨live, dormant, quiet⟩
    · obtain ⟨cfg, held, framed, inFlight⟩ := live hv
      exact .of_live hv ⟨cfg, held, framed, fun _ => inFlight (by simp [hs])⟩ nofun
  | cbRet =>
    rcases exec_cbRet_next h with ⟨-, rfl⟩ | ⟨hv, -, none, rfl⟩ | ⟨hv, -, -, -, rfl⟩
    · exact ⟨live, dormant, quiet⟩
    · obtain ⟨cfg, held, framed, -⟩ := live hv
      exact .of_live hv ⟨cfg, held, framed, fun busy => absurd rfl busy⟩ fun _ => none
    · exact .of_live hv (live_submit (live hv)) nofun
  | rst =>
    cases h
    exact .of_dormant rfl ⟨rfl, rfl, rfl⟩ rfl

/-! ### Progress -/

/-- From an invariant state every operation completes: the one fault needs a buffer longer than the memory. -/
theorem exec_completes (i : Instr) (inv : Invariant s) : ∃ t, exec i s = .next t := by
  cases i with
  | init =>
    obtain ⟨t, done, -⟩ := exec_init_completes _ _ _ _ _ _ _ s
    exact ⟨t, done⟩
  | setPixel index =>
    cases check : pixelCheck index s with
    | some st => exact ⟨_, execSetPixel_rejected check⟩
    | none =>
      obtain ⟨hv, hi⟩ := pixelCheck_eq_none.1 check
      exact ⟨_, exec_setPixel_stores hv hi (inv.strip_le hv)⟩
  | tick =>
    cases hv : s.ctxValid with
    | false => exact ⟨_, execTick_noContext hv⟩
    | true =>
      by_cases hs : s.sched = .idle
      · exact ⟨_, exec_tick_submits hv hs (inv.strip_le hv)⟩
      · exact ⟨_, execTick_busy hv hs⟩
  | txDone e =>
    by_cases expected : s.ctxValid = true ∧ s.sched = .transmitting
    · exact ⟨_, execTxDone_transmitting e expected.1 expected.2⟩
    · exact ⟨_, execTxDone_ignored e ((not_and_or.1 expected).imp_left Bool.eq_false_of_not_eq_true)⟩
  | cbRet =>
    by_cases expected : s.ctxValid = true ∧ s.sched = .callback
    · obtain ⟨hv, hs⟩ := expected
      cases hp : s.tickPending with
      | false => exact ⟨_, execCbRet_idle hv hs hp⟩
      | true => exact ⟨_, exec_cbRet_submits hv hs hp (inv.strip_le hv)⟩
    · exact ⟨_, execCbRet_ignored ((not_and_or.1 expected).imp_left Bool.eq_false_of_not_eq_true)⟩
  | rst => exact ⟨_, execRst_eq s⟩

/-! ### Steps -/

/-- A rejected arrival leaves at most an answer on the outputs (30_encoding.md R106). -/
theorem rejectArrival_eq (e : DecodeError) (s : State) :
    ∃ outputs, rejectArrival e s = .next { s with outputs := outputs } := by
  cases e <;> exact ⟨_, rfl⟩

/-- A step runs an operation on the state as its moment finds it, or changes only inputs and outputs. -/
theorem step_cases (s : State) :
    (∃ i answers inbox, step s = exec i (s.deliver answers inbox)) ∨
      ∃ answers inbox outputs, step s = .next { s with answers := answers, inbox := inbox, outputs := outputs } := by
  cases hf : fetch s.inbox with
  | none => exact .inr ⟨_, _, _, step_waits hf⟩
  | some arrival =>
    obtain ⟨a, answers, inbox⟩ := arrival
    cases hd : decode a with
    | ok i => exact .inl ⟨i, answers, inbox, by rw [step_fetched hf, hd]⟩
    | error e =>
      obtain ⟨outputs, rejected⟩ := rejectArrival_eq e (s.deliver answers inbox)
      exact .inr ⟨answers, inbox, outputs, by rw [step_fetched hf, hd]; exact rejected⟩

/-- From an invariant state every step completes in an invariant state: inputs and outputs are no part of it. -/
theorem step_completes (inv : Invariant s) : ∃ t, step s = .next t ∧ Invariant t := by
  rcases step_cases s with ⟨i, answers, inbox, run⟩ | ⟨answers, inbox, outputs, run⟩
  · have delivered : Invariant (s.deliver answers inbox) := inv
    obtain ⟨t, done⟩ := exec_completes i delivered
    exact ⟨t, run.trans done, exec_keeps_invariant delivered done⟩
  · exact ⟨_, run, inv⟩

end

end Sys2Proof.Machine

open Sys2Proof Sys2Proof.Machine

/-- Settles O53: no context, nothing held, nothing listed. -/
theorem resetMeetsInvariant : Obligations.ResetMeetsInvariant := .of_dormant rfl ⟨rfl, rfl, rfl⟩ rfl

/-- Settles O52: the step's one outcome is an invariant state. -/
theorem stepKeepsInvariant : Obligations.StepKeepsInvariant := by
  intro s t inv done
  obtain ⟨t', done', inv'⟩ := step_completes inv
  cases done.symm.trans done'
  exact inv'

/-- Settles O54, by induction on the number of steps. -/
theorem runsNeverStop : Obligations.RunsNeverStop := by
  intro k
  induction k with
  | zero => exact fun s inv => ⟨s, rfl, inv⟩
  | succ k ih =>
    intro s inv
    obtain ⟨r, first, inv'⟩ := step_completes inv
    obtain ⟨t, rest, inv''⟩ := ih r inv'
    exact ⟨t, (core_run_succ first).trans rest, inv''⟩

end

section
/-! PROOF. The buffer image (30_encoding.md section 1). The one idea: the image has 16 bytes of preamble and then 8
bytes for each pixel, so setting one pixel's descriptor changes in the image exactly the 8 bytes that SET_PIXEL
stores. -/

namespace Sys2Proof.Machine

/-! ### Reading the image -/

/-- A concatenation of pieces of one length, read at an offset: the piece and the place in it. -/
theorem getElem?_flatMap_of_length {α β : Type} {f : α → List β} {n : Nat} (hn : 0 < n) (hf : ∀ a, (f a).length = n)
    (l : List α) (o : Nat) : (l.flatMap f)[o]? = l[o / n]?.bind fun a => (f a)[o % n]? := by
  induction l generalizing o with
  | nil => simp
  | cons a l ih =>
    rw [List.flatMap_cons, List.getElem?_append, hf]
    split
    · next inside => rw [Nat.div_eq_of_lt inside, Nat.mod_eq_of_lt inside]; rfl
    · next beyond =>
      obtain ⟨p, rfl⟩ := Nat.exists_eq_add_of_le (Nat.not_lt.1 beyond)
      rw [Nat.add_sub_cancel_left, ih, Nat.add_div_left p hn, Nat.add_mod_left, List.getElem?_cons_succ]

theorem frameImage_length (p : Option Desc) : (frameImage p).length = 8 := by
  cases p
  · rfl
  · exact encodeFrame_length _

variable {pixels : List (Option Desc)} {o : Nat}

theorem imageBytes_preamble (h : o < 16) : (imageBytes pixels)[o]? = some 0#8 := by
  rw [imageBytes, List.getElem?_append_left (by rwa [List.length_replicate]), List.getElem?_replicate]
  exact if_pos h

/-- Beyond the preamble, 8 bytes for each pixel in order (30_encoding.md R86). -/
theorem imageBytes_frames (h : 16 ≤ o) :
    (imageBytes pixels)[o]? = pixels[(o - 16) / 8]?.bind fun p => (frameImage p)[(o - 16) % 8]? := by
  rw [imageBytes, List.getElem?_append_right (by rwa [List.length_replicate]), List.length_replicate,
    getElem?_flatMap_of_length (by decide) frameImage_length]
  rfl

/-- With no pixel set the image is zero throughout (92_eei_decisions.md D15). -/
theorem imageBytes_replicate_none (n : Nat) :
    (imageBytes (List.replicate n none))[o]? = if o < 16 + n * 8 then some 0#8 else none := by
  rcases Nat.lt_or_ge o 16 with h | h
  · rw [imageBytes_preamble h, if_pos (by omega)]
  · rw [imageBytes_frames h, List.getElem?_replicate]
    by_cases inside : o < 16 + n * 8
    · have zero : (frameImage none)[(o - 16) % 8]? = some 0#8 := by
        rw [frameImage, List.getElem?_replicate]
        exact if_pos (Nat.mod_lt _ (by decide))
      rw [if_pos inside, if_pos (by omega), Option.bind_some, zero]
    · rw [if_neg inside, if_neg (by omega), Option.bind_none]

/-- Setting one pixel changes the 8 bytes of its frame and no other. -/
theorem imageBytes_set {i : Nat} (hi : i < pixels.length) (desc : Desc) :
    (imageBytes (pixels.set i (some desc)))[o]? =
      if 16 + i * 8 ≤ o ∧ o < 16 + i * 8 + 8 then (encodeFrame desc)[o - (16 + i * 8)]?
      else (imageBytes pixels)[o]? := by
  rcases Nat.lt_or_ge o 16 with h | h
  · rw [imageBytes_preamble h, imageBytes_preamble h, if_neg (by omega)]
  · rw [imageBytes_frames h, imageBytes_frames h, List.getElem?_set]
    by_cases here : i = (o - 16) / 8
    · have place : (o - 16) % 8 = o - (16 + i * 8) := by omega
      rw [if_pos here, if_pos hi, if_pos (by omega), place]
      rfl
    · rw [if_neg here, if_neg (by omega)]

/-! ### Operations and the image -/

theorem event_cases {i : Instr} (hi : i.isCommand = false) (hr : i ≠ .rst) :
    ∃ e, i = .tick ∨ i = .txDone e ∨ i = .cbRet := by
  cases i with
  | init | setPixel => cases hi
  | tick => exact ⟨0, .inl rfl⟩
  | txDone e => exact ⟨e, .inr (.inl rfl)⟩
  | cbRet => exact ⟨0, .inr (.inr rfl)⟩
  | rst => exact absurd rfl hr

/-- No event but reset touches TXBUF (42_scheduler.md R171). -/
theorem exec_event_txbuf {i : Instr} {s t : State} (h : exec i s = .next t) (hi : i.isCommand = false)
    (hr : i ≠ .rst) : t.txbuf = s.txbuf := by
  obtain ⟨e, event⟩ := event_cases hi hr
  obtain ⟨-, -, same, -⟩ := eventFrame e i s t event h
  exact same

/-- What is shown after an operation: SET_PIXEL sets its pixel, nothing else sets any. -/
def showAfter (pixels : List (Option Desc)) : Instr → List (Option Desc)
  | .setPixel index desc => pixels.set index.toNat (some desc)
  | _ => pixels

section
variable {s t : State}

theorem Shows.congr (h : Shows s pixels) (hc : t.cfg = s.cfg) (hb : t.txbuf = s.txbuf) : Shows t pixels := by
  obtain ⟨length, image⟩ := h
  exact ⟨by rw [hc]; exact length, by rw [hb]; exact image⟩

/-- SET_PIXEL sets its pixel, or is turned away where the strip has no such pixel. -/
theorem exec_setPixel_shows {index : BitVec 32} {desc : Desc} (h : exec (.setPixel index desc) s = .next t)
    (hv : s.ctxValid = true) (shown : Shows s pixels) : Shows t (pixels.set index.toNat (some desc)) := by
  obtain ⟨⟨-, cfg, -⟩, -⟩ := exec_setPixel_context h
  obtain ⟨length, image⟩ := shown
  refine ⟨by rw [List.length_set, cfg, length], fun o => ?_⟩
  rw [exec_setPixel_txbuf h, image, pixelOffset_eq]
  by_cases hi : index.toNat < s.cfg.stripLength.toNat
  · simp only [pixelCheck_eq_none.2 ⟨hv, hi⟩, true_and]
    exact (imageBytes_set (length ▸ hi) desc).symm
  · rw [pixelCheck_badIndex hv (Nat.not_lt.1 hi), List.set_eq_of_length_le (by omega)]
    simp

/-- While a context lives, each operation but RST keeps TXBUF showing the last descriptor set for each pixel. -/
theorem exec_shows {i : Instr} (h : exec i s = .next t) (hv : s.ctxValid = true) (hi : i ≠ .rst)
    (shown : Shows s pixels) : t.ctxValid = true ∧ Shows t (showAfter pixels i) := by
  obtain ⟨valid, cfg, -⟩ := contextEndsOnlyByReset i s t hv hi h
  refine ⟨valid.trans hv, ?_⟩
  cases i with
  | init =>
    obtain ⟨st, rfl⟩ := exec_init_live hv h
    exact shown
  | setPixel => exact exec_setPixel_shows h hv shown
  | tick | txDone | cbRet => exact shown.congr cfg (exec_event_txbuf h rfl hi)
  | rst => exact absurd rfl hi

/-- So does any number of them. -/
theorem execAll_shows {ops : List Instr} (h : execAll ops s = .next t) (hv : s.ctxValid = true)
    (hops : ∀ i ∈ ops, i ≠ .rst) (shown : Shows s pixels) : Shows t (ops.foldl showAfter pixels) := by
  induction ops generalizing s pixels with
  | nil => cases h; exact shown
  | cons i ops ih =>
    rw [List.forall_mem_cons] at hops
    obtain ⟨r, first, rest⟩ := execAll_cons_next h
    obtain ⟨valid, shown'⟩ := exec_shows first hv hops.1 shown
    exact ih rest valid hops.2 shown'

/-- INIT shows a strip on which no pixel is set. -/
theorem exec_init_shows {b d c : BitVec 8} {cb : BitVec 1} {fc : BitVec 4} {len : BitVec 16} {clk : BitVec 32}
    (inv : Invariant s) (h : exec (.init b d c cb fc len clk) s = .next t) (ok : .response .ok ∈ t.outputs) :
    Shows t (List.replicate len.toNat none) := by
  rcases exec_init_cases h with ⟨not_ok, -⟩ | ⟨not_ok, -⟩ | ⟨-, dormant, -, passed, outputs, rfl⟩
  · exact absurd ok not_ok
  · exact absurd ok not_ok
  · obtain ⟨-, -, empty⟩ := inv.2.1 dormant
    obtain ⟨-, hmax, -⟩ := validate_eq_none.1 passed
    refine ⟨by rw [List.length_replicate, cfgOf_stripLength hmax], fun o => ?_⟩
    rw [imageBytes_replicate_none, Memory.read_zeroFill, bufLenOf_eq, empty, Memory.read_unspecified]

end

end Sys2Proof.Machine

open Sys2Proof Sys2Proof.Machine

/-- Settles O55: INIT's zero-fill is the image with no pixel set, and every operation but RST takes the image to the
image of what is set after it. -/
theorem bufferShowsLastDescriptors : Obligations.BufferShowsLastDescriptors := by
  refine ⟨fun b d c cb fc len clk s t inv done ok => exec_init_shows inv done ok,
    fun ops s t pixels hv shown hops run => ?_⟩
  have folded := execAll_shows run hv hops shown
  exact folded

end

section
/-! PROOF. Arrivals and steps (60_exceptions.md section 3; 42_scheduler.md sections 1 and 3). The one idea: what a
moment gives next is decided by the first of its wires that is up, in the order reset, `tx_done`, `cb_done`, `tick`,
command. -/

namespace Sys2Proof.Machine

section
variable {m : Moment} {later : List Moment} {s : State}

/-! ### What a moment gives next (60_exceptions.md R229) -/

theorem Moment.take_txDone (hr : m.rst = 0#1) (ht : m.txDone[1] = true) :
    m.take = some (.txDone m.txDone, { m with txDone := 0#2 }) := by
  simp [Moment.take, hr, ht]

theorem Moment.take_cbDone (hr : m.rst = 0#1) (ht : m.txDone[1] = false) (hc : m.cbDone = 1#1) :
    m.take = some (.cbDone 1#1, { m with cbDone := 0#1 }) := by
  simp [Moment.take, hr, ht, hc]

theorem Moment.take_tick (hr : m.rst = 0#1) (ht : m.txDone[1] = false) (hc : m.cbDone = 0#1) (hk : m.tick = 1#1) :
    m.take = some (.tick 1#1, { m with tick := 0#1 }) := by
  simp [Moment.take, hr, ht, hc, hk]

theorem Moment.take_cmd {w : CmdWord} (hr : m.rst = 0#1) (ht : m.txDone[1] = false) (hc : m.cbDone = 0#1)
    (hk : m.tick = 0#1) (hw : m.cmd = some w) : m.take = some (.cmd w, { m with cmd := none }) := by
  simp [Moment.take, hr, ht, hc, hk, hw]

theorem Moment.take_eq_none (hr : m.rst = 0#1) (ht : m.txDone[1] = false) (hc : m.cbDone = 0#1) (hk : m.tick = 0#1)
    (hw : m.cmd = none) : m.take = none := by
  simp [Moment.take, hr, ht, hc, hk, hw]

/-! ### Fetch -/

theorem fetch_of_take {a : Arrival} {m' : Moment} (h : m.take = some (a, m')) :
    fetch (m :: later) = some (a, m.answers, inboxAfter m' later) := by
  rw [fetch, h]

theorem fetch_of_take_eq_none (h : m.take = none) : fetch (m :: later) = fetch later := by
  rw [fetch, h]

theorem fetch_quiet {inbox : List Moment} (h : ∀ m ∈ inbox, m.take = none) : fetch inbox = none := by
  induction inbox with
  | nil => rfl
  | cons m later ih =>
    rw [List.forall_mem_cons] at h
    exact (fetch_of_take_eq_none h.1).trans (ih h.2)

theorem inboxAfter_of_take {a : Arrival} {m' : Moment} (h : m.take = some (a, m')) :
    inboxAfter m later = m :: later := by
  rw [inboxAfter, h]

theorem inboxAfter_of_take_eq_none (h : m.take = none) : inboxAfter m later = later := by
  rw [inboxAfter, h]

/-! ### Steps -/

theorem step_decoded {a : Arrival} {answers : Answers} {inbox : List Moment} {i : Instr}
    (hf : fetch s.inbox = some (a, answers, inbox)) (hd : decode a = .ok i) :
    step s = exec i (s.deliver answers inbox) := by
  rw [step_fetched hf, hd]

/-- The decoder rejects a command word for what the word holds, never for a missing strobe. -/
theorem decodeCmd_ne_noStrobe (w : CmdWord) : decodeCmd w ≠ .error .noStrobe := by
  unfold decodeCmd decodeInit decodeSetPixel
  split_ifs <;> simp

/-- An illegal command word is answered (30_encoding.md R106). -/
theorem rejectArrival_cmd {w : CmdWord} {e : DecodeError} (h : decodeCmd w = .error e) :
    rejectArrival e s = .next { s with outputs := [.response .invalidParameter] } := by
  cases e with
  | noStrobe => exact absurd h (decodeCmd_ne_noStrobe w)
  | unknownOpcode | reservedBits | reservedFreqCode | wrongLength => rfl

end

end Sys2Proof.Machine

open Sys2Proof Sys2Proof.Machine

/-- Settles O6: the state that `deliver` makes is the one the statement writes out. -/
theorem stepRunsDecodedInstruction : Obligations.StepRunsDecodedInstruction := by
  intro s a answers inbox i fetched decoded
  exact step_decoded fetched decoded

/-- Settles O7: a rejected command word is answered, whatever the reason. -/
theorem stepAnswersIllegalCommand : Obligations.StepAnswersIllegalCommand := by
  intro s w answers inbox e fetched illegal
  have rejected : decode (.cmd w) = .error e := illegal
  rw [step_fetched fetched, rejected]
  exact rejectArrival_cmd illegal

/-- Settles O8: nothing is fetched from quiet moments. -/
theorem stepWaitsWhenNothingArrives : Obligations.StepWaitsWhenNothingArrives := by
  intro s quiet
  exact step_waits (fetch_quiet quiet)

/-- Settles O9, wire by wire; a command is the last thing of its moment, so the moment is over with it. -/
theorem eventsBeforeCommandInOrder : Obligations.EventsBeforeCommandInOrder := by
  intro m later hr
  refine ⟨fun ht => fetch_of_take (Moment.take_txDone hr ht),
    fun ht hc => fetch_of_take (Moment.take_cbDone hr ht hc),
    fun ht hc hk => fetch_of_take (Moment.take_tick hr ht hc hk), fun w ht hc hk hw => ?_,
    fun ht hc hk hw => fetch_of_take_eq_none (Moment.take_eq_none hr ht hc hk hw)⟩
  have emptied : Moment.take { m with cmd := none } = none := Moment.take_eq_none hr ht hc hk rfl
  rw [fetch_of_take (Moment.take_cmd hr ht hc hk hw), inboxAfter_of_take_eq_none emptied]

/-- Settles O10: the first step takes `cb_done` and ends in Idle with the tick still in its moment, which the second
step takes. -/
theorem tickWithCallbackReturnStartsTransfer : Obligations.TickWithCallbackReturnStartsTransfer := by
  intro s m later hin hr ht hc hk hv hs hp hlen
  have next_tick : Moment.take { m with cbDone := 0#1 } = some (.tick 1#1, { m with cbDone := 0#1, tick := 0#1 }) :=
    Moment.take_tick hr ht rfl hk
  have first : fetch s.inbox = some (.cbDone 1#1, m.answers, { m with cbDone := 0#1 } :: later) := by
    rw [hin, fetch_of_take (Moment.take_cbDone hr ht hc), inboxAfter_of_take next_tick]
  refine ⟨_, _, (step_decoded first rfl).trans (execCbRet_idle hv hs hp), rfl,
    (step_decoded (fetch_of_take next_tick) rfl).trans (exec_tick_submits hv rfl hlen), rfl, hp, rfl⟩

end

section
/-! PROOF. Statements over all operations (30_encoding.md section 3; 20_memory.md section 1; 42_scheduler.md section
3; 10_state.md sections 3 and 6). The one idea: each operation's next states are known, so each statement is read off
them. -/

namespace Sys2Proof.Machine

section
variable {i : Instr} {s t : State}

/-- An event raises no output but a Submit and a callback request (42_scheduler.md R172, R176). -/
theorem exec_event_outputs (h : exec i s = .next t) (hi : i.isCommand = false) :
    ∀ o ∈ t.outputs, o = .cbReq ∨ ∃ len, o = .txSubmit len := by
  cases i with
  | init | setPixel => cases hi
  | tick => rcases exec_tick_next h with ⟨-, rfl⟩ | ⟨-, -, -, rfl⟩ | ⟨-, -, rfl⟩ <;> simp
  | txDone => rcases exec_txDone_next h with ⟨-, rfl⟩ | ⟨-, -, rfl⟩ <;> simp
  | cbRet => rcases exec_cbRet_next h with ⟨-, rfl⟩ | ⟨-, -, -, rfl⟩ | ⟨-, -, -, -, rfl⟩ <;> simp
  | rst => cases h; simp

/-- A command raises requests, which only an INIT without a context does, and then one response (30_encoding.md R101).
-/
theorem exec_command_outputs (h : exec i s = .next t) (hi : i.isCommand = true) :
    ∃ asked st, t.outputs = asked ++ [.response st] ∧
      ∀ o ∈ asked, o.isRequest = true ∧ o ≠ .timerStop ∧
        ∃ b d c cb fc len clk, i = .init b d c cb fc len clk ∧ s.ctxValid = false := by
  cases i with
  | init b d c cb fc len clk =>
    obtain ⟨asked, st, houtputs, hasked⟩ := exec_init_outputs h
    exact ⟨asked, st, houtputs, fun o ho =>
      ⟨(hasked o ho).1, (hasked o ho).2.1, b, d, c, cb, fc, len, clk, rfl, (hasked o ho).2.2⟩⟩
  | setPixel =>
    obtain ⟨st, houtputs⟩ := exec_setPixel_outputs h
    exact ⟨[], st, houtputs, by simp⟩
  | tick | txDone | cbRet | rst => cases hi

theorem Output.not_response_of_request {o : Output} (h : o.isRequest = true) : o.isResponse = false := by
  cases o with
  | response | txSubmit | cbReq => cases h
  | allocReq | allocFree | openReq | closeReq | timerStart | timerStop => rfl

/-- The store keeps the canonical form of both memories. -/
theorem store_wf {a : Nat} {bs : List Byte} (hb : s.txbuf.wf = true) (hp : s.payload.wf = true)
    (ha : a + bs.length ≤ Config.bufCapacity) :
    (s.store a bs).txbuf.wf = true ∧ (s.store a bs).payload.wf = true := by
  refine ⟨by rw [State.store_txbuf]; exact Memory.wf_writeBytes bs _ a hb ha, ?_⟩
  by_cases hs : s.sched = .transmitting
  · rw [State.store_payload_transmitting _ _ _ hs]
    exact Memory.wf_race _ _ _ _ hp
  · rwa [State.store_payload_quiet _ _ _ hs]

/-- An event leaves TXBUF as it is, and the payload too unless it submits TXBUF. -/
theorem exec_event_wf (h : exec i s = .next t) (hi : i.isCommand = false) (hr : i ≠ .rst)
    (hb : s.txbuf.wf = true) (hp : s.payload.wf = true) : t.txbuf.wf = true ∧ t.payload.wf = true := by
  obtain ⟨e, event⟩ := event_cases hi hr
  obtain ⟨-, -, buffer, -, kept | submitted⟩ := eventFrame e i s t event h
  · exact ⟨by rwa [buffer], by rwa [kept]⟩
  · obtain ⟨-, -, -, payload⟩ := exec_submits h submitted
    exact ⟨by rwa [buffer], by rw [payload]; exact Memory.wf_upTo _ _ hb⟩

end

end Sys2Proof.Machine

open Sys2Proof Sys2Proof.Machine

/-- Settles O45: the next state of RST, field by field. -/
theorem rstEndsTheContext : Obligations.RstEndsTheContext := fun s =>
  ⟨_, execRst_eq s, rfl, rfl, rfl, rfl, rfl, rfl, rfl, rfl, rfl, rfl, rfl, rfl, rfl, rfl, rfl, rfl⟩

/-- Settles O46: the reset state, field by field. -/
theorem resetStateValues : Obligations.ResetStateValues :=
  ⟨rfl, rfl, rfl, rfl, rfl, rfl, rfl, rfl, rfl, rfl, rfl⟩

/-- Settles O48: a live context's INIT writes nothing, an event never writes TXBUF, and a pixel's frame begins at or
above offset 16. -/
theorem preambleIsNeverWritten : Obligations.PreambleIsNeverWritten := by
  intro i s t live not_rst done o ho
  cases i with
  | init =>
    obtain ⟨st, rfl⟩ := exec_init_live live done
    rfl
  | setPixel index desc => rw [exec_setPixel_txbuf done, pixelOffset_eq, if_neg (by omega)]
  | tick | txDone | cbRet => rw [exec_event_txbuf done rfl not_rst]
  | rst => exact absurd rfl not_rst

/-- Settles O49: a command's outputs are requests and one response, an event's are neither. -/
theorem commandsRespondOnceEventsNever : Obligations.CommandsRespondOnceEventsNever := by
  intro i s t done
  cases hi : i.isCommand with
  | true =>
    obtain ⟨asked, st, houtputs, hasked⟩ := exec_command_outputs done hi
    have silent : asked.filter Output.isResponse = [] := by
      rw [List.filter_eq_nil_iff]
      intro o ho
      simp [Output.not_response_of_request (hasked o ho).1]
    rw [houtputs, List.filter_append, silent]
    rfl
  | false =>
    have silent : t.outputs.filter Output.isResponse = [] := by
      rw [List.filter_eq_nil_iff]
      intro o ho
      rcases exec_event_outputs done hi o ho with rfl | ⟨len, rfl⟩ <;> simp [Output.isResponse]
    rw [silent]
    rfl

/-- Settles O50: only an INIT without a context asks, and it asks for no stop. -/
theorem timerIsStartedByInitAndNeverStopped : Obligations.TimerIsStartedByInitAndNeverStopped := by
  intro i s t done
  cases hi : i.isCommand with
  | true =>
    obtain ⟨asked, st, houtputs, hasked⟩ := exec_command_outputs done hi
    refine ⟨fun stopped => ?_, fun p started => ?_⟩
    · have among : .timerStop ∈ asked := by simpa [houtputs] using stopped
      exact (hasked _ among).2.1 rfl
    · have among : .timerStart p ∈ asked := by simpa [houtputs] using started
      exact (hasked _ among).2.2
  | false =>
    have raised := exec_event_outputs done hi
    exact ⟨fun stopped => by simpa using raised _ stopped, fun p started => by simpa using raised _ started⟩

/-- Settles O51: zero-fill, store and Submit keep the canonical form, and RST and a failed INIT leave nothing listed. -/
theorem memoriesStayCanonical : Obligations.MemoriesStayCanonical := by
  intro i s t hb hp done
  cases i with
  | init =>
    rcases exec_init_cases done with ⟨-, st, rfl⟩ | ⟨-, -, held, outputs, -, rfl⟩ | ⟨-, -, -, passed, outputs, rfl⟩
    · exact ⟨hb, hp⟩
    · exact ⟨Memory.wf_unspecified, hp⟩
    · obtain ⟨-, hmax, -⟩ := validate_eq_none.1 passed
      exact ⟨Memory.wf_zeroFill _ _ hb (by rw [bufLenOf_eq, bufCapacity_eq]; omega), hp⟩
  | setPixel index desc =>
    rcases execSetPixel_next done with ⟨st, -, rfl⟩ | ⟨-, fits, rfl⟩
    · exact ⟨hb, hp⟩
    · exact store_wf (s := s.begin) hb hp (by rwa [encodeFrame_length])
  | tick | txDone | cbRet => exact exec_event_wf done rfl (by simp) hb hp
  | rst =>
    cases done
    exact ⟨Memory.wf_unspecified, Memory.wf_unspecified⟩

/-- Settles O56: the three tables, evaluated. -/
theorem statusCodesAndPeriods : Obligations.StatusCodesAndPeriods := by
  refine ⟨?_, ?_, ?_⟩ <;> decide

end
